-- ==== Sys2Proof/Word.lean ====
section
/-! DEFINITION. The word types of the voice-engine array (VEA): what the spec reads as bits (R8, R9, R100).

A register with a stated width is a `BitVec` of that width: it is read as an unsigned number with `toNat` or as a
two's-complement number with `toInt`, and a write keeps the low bits (`BitVec.ofNat`, `BitVec.ofInt`), which is R9's
"reduced modulo 2^width on write (unsigned) or kept in two's complement (signed)". Arithmetic is done on `Nat` and `Int`. -/

namespace Sys2Proof

/-- One byte of the output stream (R80). -/
abbrev Byte := BitVec 8

/-- A 32-bit data word: the `D` field of a command, a response word, most table fields (R8, R100). -/
abbrev Word := BitVec 32

/-- A command word (R100). -/
abbrev CmdWord := BitVec 64

/-- 1.0 in Q15 (R9, R11): full scale of every unipolar value. -/
abbrev one : Nat := 32768

end Sys2Proof
end

