-- ==== Sys2Proof/Syntax.lean ====
section
/-! DEFINITION. The commands of the VEA: one constructor per row of spec/opcode_table.json (R101), its operands the fields
the command reads (R101's column "fields"), each at the width R100 gives it: `A` 8 bits, `B` 16 bits, `D` 32 bits. A field
that a command does not read is no operand (R102). -/

namespace Sys2Proof

/-- A command (R101). -/
inductive Instr where
  /-- `NOP` (R120). -/
  | nop
  /-- `OPEN` (R121). -/
  | open_
  /-- `CLOSE` (R122). -/
  | close
  /-- `MSET reg, value` (R123). -/
  | mset (reg : BitVec 16) (value : BitVec 32)
  /-- `ASENSE value` (R124). -/
  | asense (value : BitVec 32)
  /-- `ERRCLR mask` (R125). -/
  | errclr (mask : BitVec 32)
  /-- `IENSET mask` (R126). -/
  | ienset (mask : BitVec 32)
  /-- `RDG reg` (R127). -/
  | rdg (reg : BitVec 16)
  /-- `CCWR chan, ctrl, value` (R140). -/
  | ccwr (chan : BitVec 8) (ctrl : BitVec 16) (value : BitVec 32)
  /-- `PBWR chan, value` (R141). -/
  | pbwr (chan : BitVec 8) (value : BitVec 32)
  /-- `CPWR chan, value` (R142). -/
  | cpwr (chan : BitVec 8) (value : BitVec 32)
  /-- `RPNWR chan, slot, value` (R143). -/
  | rpnwr (chan : BitVec 8) (slot : BitVec 16) (value : BitVec 32)
  /-- `NRPNWR chan, slot, value` (R144). -/
  | nrpnwr (chan : BitVec 8) (slot : BitVec 16) (value : BitVec 32)
  /-- `CHOFF chan, mode` (R145). -/
  | choff (chan : BitVec 8) (mode : BitVec 32)
  /-- `CHREL chan, mask` (R146). -/
  | chrel (chan : BitVec 8) (mask : BitVec 32)
  /-- `WPTR addr` (R160). -/
  | wptr (addr : BitVec 32)
  /-- `WWR sample` (R161). -/
  | wwr (sample : BitVec 32)
  /-- `WTWR field, index, value` (R162). -/
  | wtwr (field : BitVec 8) (index : BitVec 16) (value : BitVec 32)
  /-- `CBWR field, index, value` (R163). -/
  | cbwr (field : BitVec 8) (index : BitVec 16) (value : BitVec 32)
  /-- `LRWR field, value` (R181). -/
  | lrwr (field : BitVec 8) (value : BitVec 32)
  /-- `VSTART slot` (R182). -/
  | vstart (slot : BitVec 8)
  /-- `VOFF slot, mode` (R188). -/
  | voff (slot : BitVec 8) (mode : BitVec 32)
  /-- `VSIL slot` (R189). -/
  | vsil (slot : BitVec 8)
  /-- `VCANCEL slot` (R193). -/
  | vcancel (slot : BitVec 8)
  /-- `VGLIDE slot` (R194). -/
  | vglide (slot : BitVec 8)
  /-- `PPWR slot, value` (R195). -/
  | ppwr (slot : BitVec 8) (value : BitVec 32)
  /-- `RDV slot, field` (R199). -/
  | rdv (slot : BitVec 8) (field : BitVec 16)
deriving DecidableEq, Repr

end Sys2Proof
end

