-- ==== Sys2Proof/Decode.lean ====
section
/-! DEFINITION. Decoding a command word (R100, R101, R103 stage 1, R115), and after it the encoder (R100, R113). -/

namespace Sys2Proof

/-- Why a word is no command. -/
inductive DecodeError where
  /-- The `OP` field is one of the 229 values outside R101's table (R115). -/
  | undefinedOpcode (op : BitVec 8)
deriving DecidableEq, Repr

/-- `OP` = w[63:56] (R100). -/
def opField (w : CmdWord) : BitVec 8 := w.extractLsb' 56 8

/-- `A` = w[55:48] (R100). -/
def aField (w : CmdWord) : BitVec 8 := w.extractLsb' 48 8

/-- `B` = w[47:32] (R100). -/
def bField (w : CmdWord) : BitVec 16 := w.extractLsb' 32 16

/-- `D` = w[31:0] (R100). -/
def dField (w : CmdWord) : BitVec 32 := w.extractLsb' 0 32

/-- The opcode map (R101): a field the command does not read is ignored (R102); every `OP` outside the map is undefined
(R115). -/
def decode (w : CmdWord) : Except DecodeError Instr :=
  match (opField w).toNat with
  | 0x00 => .ok .nop
  | 0x01 => .ok .open_
  | 0x02 => .ok .close
  | 0x03 => .ok (.mset (bField w) (dField w))
  | 0x04 => .ok (.asense (dField w))
  | 0x05 => .ok (.errclr (dField w))
  | 0x06 => .ok (.ienset (dField w))
  | 0x07 => .ok (.rdg (bField w))
  | 0x10 => .ok (.ccwr (aField w) (bField w) (dField w))
  | 0x11 => .ok (.pbwr (aField w) (dField w))
  | 0x12 => .ok (.cpwr (aField w) (dField w))
  | 0x13 => .ok (.rpnwr (aField w) (bField w) (dField w))
  | 0x14 => .ok (.nrpnwr (aField w) (bField w) (dField w))
  | 0x15 => .ok (.choff (aField w) (dField w))
  | 0x16 => .ok (.chrel (aField w) (dField w))
  | 0x20 => .ok (.wptr (dField w))
  | 0x21 => .ok (.wwr (dField w))
  | 0x22 => .ok (.wtwr (aField w) (bField w) (dField w))
  | 0x23 => .ok (.cbwr (aField w) (bField w) (dField w))
  | 0x30 => .ok (.lrwr (aField w) (dField w))
  | 0x31 => .ok (.vstart (aField w))
  | 0x32 => .ok (.voff (aField w) (dField w))
  | 0x33 => .ok (.vsil (aField w))
  | 0x34 => .ok (.vcancel (aField w))
  | 0x35 => .ok (.vglide (aField w))
  | 0x36 => .ok (.ppwr (aField w) (dField w))
  | 0x37 => .ok (.rdv (aField w) (bField w))
  | _ => .error (.undefinedOpcode (opField w))

/-- The instruction the decoder reads from a table word: one 64-bit word, bit 0 its least significant bit; bits at or above
`nbits` are 0. -/
def decodeTableWord (nbits w : Nat) : Option Instr :=
  match decode (BitVec.ofNat 64 (w % 2 ^ nbits)) with
  | .ok i => some i
  | .error _ => none

/-! ## The encoder -/

/-- A command word from its four fields: `OP` ‖ `A` ‖ `B` ‖ `D` (R100). -/
def assemble (op a : BitVec 8) (b : BitVec 16) (d : BitVec 32) : CmdWord := op ++ a ++ b ++ d

/-- The word of an instruction: unused fields assemble to zero (R113). -/
def encode : Instr → CmdWord
  | .nop => assemble 0x00 0 0 0
  | .open_ => assemble 0x01 0 0 0
  | .close => assemble 0x02 0 0 0
  | .mset b d => assemble 0x03 0 b d
  | .asense d => assemble 0x04 0 0 d
  | .errclr d => assemble 0x05 0 0 d
  | .ienset d => assemble 0x06 0 0 d
  | .rdg b => assemble 0x07 0 b 0
  | .ccwr a b d => assemble 0x10 a b d
  | .pbwr a d => assemble 0x11 a 0 d
  | .cpwr a d => assemble 0x12 a 0 d
  | .rpnwr a b d => assemble 0x13 a b d
  | .nrpnwr a b d => assemble 0x14 a b d
  | .choff a d => assemble 0x15 a 0 d
  | .chrel a d => assemble 0x16 a 0 d
  | .wptr d => assemble 0x20 0 0 d
  | .wwr d => assemble 0x21 0 0 d
  | .wtwr a b d => assemble 0x22 a b d
  | .cbwr a b d => assemble 0x23 a b d
  | .lrwr a d => assemble 0x30 a 0 d
  | .vstart a => assemble 0x31 a 0 0
  | .voff a d => assemble 0x32 a 0 d
  | .vsil a => assemble 0x33 a 0 0
  | .vcancel a => assemble 0x34 a 0 0
  | .vglide a => assemble 0x35 a 0 0
  | .ppwr a d => assemble 0x36 a 0 d
  | .rdv a b => assemble 0x37 a b 0

end Sys2Proof
end

