-- ==== Sys2Proof/Machine/Arith.lean ====
section
/-! DEFINITION. The numeric notation of the spec (R9) and the linear ramp (R10). -/

namespace Sys2Proof.Machine

/-- `asr(x, n)` = floor(x / 2^n) (R9). -/
def asr (x : Int) (n : Nat) : Int := x >>> n

/-- `clamp(x, lo, hi)` (R9). -/
def clamp (x lo hi : Int) : Int := if x < lo then lo else if x > hi then hi else x

/-- `sat16(x)` = clamp(x, −32768, 32767) (R9). -/
def sat16 (x : Int) : Int := clamp x (-32768) 32767

/-- One bit of the integer square root, from the top: the greatest r' ≥ r made of r and bits below 2^k with r'·r' ≤ n. -/
def isqrtBits (n : Nat) : Nat → Nat → Nat
  | 0, r => r
  | k + 1, r => if (r + 2 ^ k) * (r + 2 ^ k) ≤ n then isqrtBits n k (r + 2 ^ k) else isqrtBits n k r

/-- The greatest r with r·r ≤ n. -/
def isqrt (n : Nat) : Nat := isqrtBits n (n.log2 / 2 + 1) 0

/-- `ceilsqrt(n)`: the least r with r·r ≥ n (R9). -/
def ceilsqrt (n : Nat) : Nat := if isqrt n * isqrt n = n then isqrt n else isqrt n + 1

/-- `Ramp(old, new, j, n)` (R10). -/
def ramp (old new j n : Nat) : Nat := (old * (n - 1 - j) + new * (j + 1)) / n

end Sys2Proof.Machine
end

