-- ==== Sys2Proof/Config.lean ====
section
/-! DEFINITION. The implementation parameters of the VEA (R7, R15, R16), the effect unit that is a parameter of the
model (R330, R331), and the FREE VALUES: constants without a body, of which nothing can be proved, so that a claim holds
whatever they are. -/

namespace Sys2Proof

/-- The effect unit FX, a parameter of the model (R330): which unit is connected. -/
inductive FxUnit where
  /-- `FxNull`, the reference unit: the dry signal passes and the sends are dropped (R331). -/
  | null
  /-- `FxEcho`, the test unit of the spec's vector 10.3: each send comes back one chunk later on one side. -/
  | echo
  /-- Any other unit: its three functions are the free values `Config.fxInit`, `Config.fxControl` and `Config.fxAudio`,
  of which only R330's contract is assumed. The number tells such units apart. -/
  | external (unit : Nat)
deriving DecidableEq, Repr

/-- The state `FXST` of the effect unit, coded as a number (R32: "of the opaque type the effect unit defines"); DESIGN
CHOICE, log entry 8: a number codes any finite or countable state. -/
abbrev FxState := Nat

/-- What `Fx.audio` returns (R330): the next state, the two processed live buses, the five delay buses. -/
structure FxOut where
  st  : FxState
  l   : List (BitVec 32)
  r   : List (BitVec 32)
  dl  : List (BitVec 32)
  dr  : List (BitVec 32)
  dm  : List (BitVec 32)
  de1 : List (BitVec 32)
  de2 : List (BitVec 32)
deriving DecidableEq, Repr, Inhabited

/-- The implementation parameters (R7). `CTRL_RATE`, `SIL_TICKS` and `ASENSE_LIMIT` are fixed by them or by the spec. -/
structure Config where
  /-- `NV`, the number of voice slots. -/
  nv        : Nat
  /-- `FS`, the output sample rate in Hz. -/
  fs        : Nat
  /-- `CHUNK`, frames per tick. -/
  chunk     : Nat
  /-- `WAVE_SIZE`, samples in WAVE. -/
  waveSize  : Nat
  /-- `NWT`, wavetable descriptors. -/
  nwt       : Nat
  /-- `NCB`, connection-block entries. -/
  ncb       : Nat
  /-- `N_RPN`, RPN value slots per channel. -/
  nRpn      : Nat
  /-- `N_NRPN`, NRPN value slots per channel. -/
  nNrpn     : Nat
  /-- `SHUT_STEP`, fast-release decrement per tick, Q15. -/
  shutStep  : Nat
  /-- `Fx`, the effect unit. -/
  fx        : FxUnit
deriving DecidableEq, Repr

namespace Config

/-- `CTRL_RATE`, ticks per second: FS / CHUNK (R7). -/
def ctrlRate (c : Config) : Nat := c.fs / c.chunk

/-- `ASENSE_LIMIT`, the watchdog limit in ticks: CTRL_RATE (R7). -/
def asenseLimit (c : Config) : Nat := c.ctrlRate

/-- `SIL_TICKS`, silent ticks before idle (R6, R7). -/
def silTicks : Nat := 5

/-- The size of the output buffer in bytes, 4·CHUNK (R48). -/
def outBytes (c : Config) : Nat := 4 * c.chunk

/-- The reference configuration REF (R15). -/
def ref : Config where
  nv := 64
  fs := 44100
  chunk := 300
  waveSize := 4194304
  nwt := 1024
  ncb := 8192
  nRpn := 8
  nNrpn := 16
  shutStep := 16384
  fx := .null

/-- The test configuration TCFG (R16). -/
def tcfg : Config where
  nv := 4
  fs := 1176
  chunk := 8
  waveSize := 64
  nwt := 4
  ncb := 16
  nRpn := 8
  nNrpn := 16
  shutStep := 16384
  fx := .null

/-! ## Free values -/

/-- FREE VALUE (log entry 4). What WAVE element `addr` holds after the reset numbered `epoch` until HOST writes it (R78). -/
opaque waveInit (epoch addr : Nat) : BitVec 16

/-- FREE VALUE (log entry 4). What field `field` of descriptor `index` holds after the reset numbered `epoch` until HOST
writes it (R78). -/
opaque wtInit (epoch index field : Nat) : BitVec 32

/-- FREE VALUE (log entry 4). What field `field` of connection-block entry `index` holds after the reset numbered `epoch`
until HOST writes it (R78). -/
opaque cbInit (epoch index field : Nat) : BitVec 32

/-- FREE VALUE (log entry 5). Which of the values an element has held the `n`-th read of a rewritten WAVE element takes
(R386: "either the old or the new one, chosen independently per read"). -/
opaque hazardPick (n : Nat) : Nat

/-- FREE VALUE (log entry 8). `Fx.init()` of an external unit (R330). -/
opaque fxInit (unit : Nat) : FxState

/-- FREE VALUE (log entry 8). `Fx.control(st)` of an external unit (R330). -/
opaque fxControl (unit : Nat) (st : FxState) : FxState

/-- FREE VALUE (log entry 8). `Fx.audio(st, L, R, E1, E2)` of an external unit on chunks of `n` frames, before the model
holds it to R330's contract (n elements in every array, delay elements within ±2^28). -/
opaque fxAudio (unit n : Nat) (st : FxState) (l r e1 e2 : List (BitVec 32)) : FxOut

end Config

/-- `Fx.init()` (R330, R331). -/
def FxUnit.init : FxUnit → FxState
  | .null => 0
  | .echo => 0
  | .external u => Config.fxInit u

end Sys2Proof
end

