-- ==== Sys2Proof/WellFormed.lean ====
section
/-! DEFINITION. Well-formedness: the constraints R7 puts on a configuration, one check each.

An instruction needs none: every operand has in its TYPE the width of the field that holds it (R100), every value of a
field is accepted on decode (R102), and the range checks of R352 are part of the commands' meanings, not of their form. So
"every well-formed instruction" is every value of `Instr`, and the statements about decoding are made of all of them. -/

namespace Sys2Proof
namespace Config

/-- 1 ≤ NV ≤ 256. -/
def nvOk (c : Config) : Bool := decide (1 ≤ c.nv) && decide (c.nv ≤ 256)

/-- CHUNK ≥ 1. -/
def chunkOk (c : Config) : Bool := decide (1 ≤ c.chunk)

/-- FS mod CHUNK = 0, and (DEDUCED, log entry 12) FS ≥ 1: R277 divides by it. -/
def fsOk (c : Config) : Bool := decide (1 ≤ c.fs) && decide (c.fs % c.chunk = 0)

/-- 1 ≤ WAVE_SIZE ≤ 2^32. -/
def waveSizeOk (c : Config) : Bool := decide (1 ≤ c.waveSize) && decide (c.waveSize ≤ 4294967296)

/-- 1 ≤ NWT ≤ 65536. -/
def nwtOk (c : Config) : Bool := decide (1 ≤ c.nwt) && decide (c.nwt ≤ 65536)

/-- 1 ≤ NCB ≤ 65536. -/
def ncbOk (c : Config) : Bool := decide (1 ≤ c.ncb) && decide (c.ncb ≤ 65536)

/-- 1 ≤ N_RPN ≤ 4096. -/
def nRpnOk (c : Config) : Bool := decide (1 ≤ c.nRpn) && decide (c.nRpn ≤ 4096)

/-- 1 ≤ N_NRPN ≤ 4096. -/
def nNrpnOk (c : Config) : Bool := decide (1 ≤ c.nNrpn) && decide (c.nNrpn ≤ 4096)

/-- 1 ≤ SHUT_STEP ≤ 32768. -/
def shutStepOk (c : Config) : Bool := decide (1 ≤ c.shutStep) && decide (c.shutStep ≤ 32768)

/-- Every constraint of R7's table. -/
def wf (c : Config) : Bool :=
  c.nvOk && c.chunkOk && c.fsOk && c.waveSizeOk && c.nwtOk && c.ncbOk && c.nRpnOk && c.nNrpnOk && c.shutStepOk

end Config
end Sys2Proof
end

