-- ==== Sys2Proof/Machine/State.lean ====
section
/-! DEFINITION. The architectural state of the VEA (10_state.md, R20 to R51) as plain data, and its value after `Reset`
(R380, R381, R51). The state is grouped as the spec's rules group it. The fields marked MODEL'S OWN are not the spec's:
they hold what the spec makes a parameter of the step relation (the configuration, the schedule), what an agent outside
receives, and the counters that free values are applied to. -/

namespace Sys2Proof.Machine

/-! ## Enumerated fields -/

/-- `LMODE`: the four loop modes, codes 0 to 3 (R111). -/
inductive LoopMode where
  | off
  | forward
  | release
  | pingpong
deriving DecidableEq, Repr

/-- `DIR`: +1 or −1 (R45). -/
inductive Dir where
  /-- +1 -/
  | up
  /-- −1 -/
  | down
deriving DecidableEq, Repr

/-- `STAGE` of an envelope generator: IDLE 0 to DONE 5; codes 6 and 7 are never produced (R240). -/
inductive EgStage where
  | idle
  | attack
  | decay
  | sustain
  | release
  | done
deriving DecidableEq, Repr

/-! ## The launch record (R33) -/

/-- A launch record: the eleven fields of R33, in field-number order. -/
structure LaunchRec where
  chan    : BitVec 4
  note    : BitVec 7
  vel     : BitVec 7
  vid     : BitVec 32
  wt      : BitVec 16
  cbbase  : BitVec 16
  cbcnt   : BitVec 16
  excl    : BitVec 32
  reltrig : Bool
  /-- Q16.16 cents, signed. -/
  gofs    : BitVec 32
  /-- Q16.16 cents per tick, unsigned. -/
  grate   : BitVec 32
deriving DecidableEq, Repr

/-- Every field 0 (R33's reset value). -/
def LaunchRec.zero : LaunchRec where
  chan := 0
  note := 0
  vel := 0
  vid := 0
  wt := 0
  cbbase := 0
  cbcnt := 0
  excl := 0
  reltrig := false
  gofs := 0
  grate := 0

/-- `PEND`: a launch record with a `VALID` bit (R37). -/
structure Pend where
  valid  : Bool
  launch : LaunchRec
deriving DecidableEq, Repr

/-- No pending record, all fields 0. -/
def Pend.none : Pend where
  valid := false
  launch := .zero

/-! ## The channel source files (R34) -/

/-- `CH[c]`: controllers, pitch bend, channel pressure, RPN and NRPN value slots. -/
structure Channel where
  cc   : Vector (BitVec 7) 128
  pb   : BitVec 14
  cp   : BitVec 7
  /-- N_RPN slots. -/
  rpn  : List (BitVec 14)
  /-- N_NRPN slots. -/
  nrpn : List (BitVec 14)
deriving DecidableEq, Repr

/-- Reset value of a channel file: bend at the centre, all else 0 (R34). -/
def Channel.reset (cfg : Config) : Channel where
  cc := Vector.replicate 128 0
  pb := 8192
  cp := 0
  rpn := List.replicate cfg.nRpn 0
  nrpn := List.replicate cfg.nNrpn 0

/-! ## The voice slots (R35 to R46) -/

/-- Identity fields (R35). -/
structure Ident where
  chan    : BitVec 4
  note    : BitVec 7
  vel     : BitVec 7
  vid     : BitVec 32
  wtidx   : BitVec 16
  cbbase  : BitVec 16
  cbcnt   : BitVec 16
  excl    : BitVec 32
  reltrig : Bool
deriving DecidableEq, Repr

/-- Flags (R36). -/
structure Flags where
  on        : Bool
  sus       : Bool
  sost      : Bool
  silencing : Bool
  final     : Bool
  first     : Bool
deriving DecidableEq, Repr

/-- Forced note-on values (R38). -/
structure Forced where
  fvelv : Bool
  fkeyv : Bool
  fvel  : BitVec 7
  fkey  : BitVec 7
deriving DecidableEq, Repr

/-- One envelope generator (R41). -/
structure Eg where
  stage : EgStage
  level : BitVec 16
deriving DecidableEq, Repr

/-- One low-frequency oscillator (R42). -/
structure Lfo where
  ph   : BitVec 32
  dcnt : BitVec 16
  out  : BitVec 16
deriving DecidableEq, Repr

/-- A wavetable descriptor (R111): what WT holds and what `Init` snapshots (R45). -/
structure Desc where
  base   : BitVec 32
  len    : BitVec 32
  lstart : BitVec 32
  llen   : BitVec 32
  lmode  : LoopMode
  rate   : BitVec 32
  /-- Q16.16 cents, signed. -/
  corr   : BitVec 32
deriving DecidableEq, Repr

/-- The read position of the resampler (R45, R272). -/
structure Pos where
  srci   : BitVec 32
  frac   : BitVec 15
  dir    : Dir
  loopen : Bool
  ended  : Bool
deriving DecidableEq, Repr

/-- Per-tick audio parameters (R46). -/
structure Audio where
  tnew : BitVec 32
  told : BitVec 32
  anew : BitVec 16
  aold : BitVec 16
  gl   : BitVec 16
  gr   : BitVec 16
  mono : Bool
  rv   : BitVec 16
  ch   : BitVec 16
deriving DecidableEq, Repr

/-- `V[v]`, one voice slot (R35 to R46). -/
structure Voice where
  /-- `ACT` (R37). -/
  act    : Bool
  /-- `PEND` (R37). -/
  pend   : Pend
  ident  : Ident
  flags  : Flags
  forced : Forced
  /-- `PP`, poly pressure (R39). -/
  pp     : BitVec 7
  /-- `DST[0..23]`, the destination registers, signed Q16.16 (R40). -/
  dst    : Vector (BitVec 48) 24
  /-- `EG[0]`, `EG[1]` (R41). -/
  eg0    : Eg
  eg1    : Eg
  /-- `LFO[0]`, `LFO[1]` (R42). -/
  lfo0   : Lfo
  lfo1   : Lfo
  /-- `SHUT`, the shutdown gain (R43). -/
  shut   : BitVec 16
  /-- `GOFS`, glide offset, signed Q16.16 cents (R44). -/
  gofs   : BitVec 32
  /-- `GRATE`, glide rate (R44). -/
  grate  : BitVec 32
  /-- The descriptor snapshot (R45). -/
  desc   : Desc
  /-- The read position (R45). -/
  pos    : Pos
  audio  : Audio
  /-- MODEL'S OWN (log entry 5): for each WAVE element of the slot's view that a `WWR` rewrote while the slot was not FREE,
  the values it held before: a later read by this voice takes one of these or the present value (R386). -/
  stale  : List (Nat × BitVec 16)
deriving DecidableEq, Repr

/-- Identity fields all 0. -/
def Ident.zero : Ident where
  chan := 0
  note := 0
  vel := 0
  vid := 0
  wtidx := 0
  cbbase := 0
  cbcnt := 0
  excl := 0
  reltrig := false

/-- Flags all 0. -/
def Flags.zero : Flags where
  on := false
  sus := false
  sost := false
  silencing := false
  final := false
  first := false

/-- No forced value. -/
def Forced.zero : Forced where
  fvelv := false
  fkeyv := false
  fvel := 0
  fkey := 0

/-- IDLE at level 0 (R41). -/
def Eg.reset : Eg where
  stage := .idle
  level := 0

/-- Phase 0, no delay, output at the centre (R42). -/
def Lfo.reset : Lfo where
  ph := 0
  dcnt := 0
  out := 16384

/-- Snapshot all 0 (R45). -/
def Desc.zero : Desc where
  base := 0
  len := 0
  lstart := 0
  llen := 0
  lmode := .off
  rate := 0
  corr := 0

/-- Position 0, `DIR` = +1 (R45). -/
def Pos.reset : Pos where
  srci := 0
  frac := 0
  dir := .up
  loopen := false
  ended := false

/-- Audio parameters 0, but `GL` = `GR` = 32768 and `MONO` = 1 (R46). -/
def Audio.reset : Audio where
  tnew := 0
  told := 0
  anew := 0
  aold := 0
  gl := 32768
  gr := 32768
  mono := true
  rv := 0
  ch := 0

/-- A voice slot after `Reset` or `CLOSE`: FREE, every field at R51's value. -/
def Voice.reset : Voice where
  act := false
  pend := .none
  ident := .zero
  flags := .zero
  forced := .zero
  pp := 0
  dst := Vector.replicate 24 0
  eg0 := .reset
  eg1 := .reset
  lfo0 := .reset
  lfo1 := .reset
  shut := 0
  gofs := 0
  grate := 0
  desc := .zero
  pos := .reset
  audio := .reset
  stale := []

/-! ## Memories, buses -/

/-- One of the three table memories (R70): the elements HOST has written, as (address, element) pairs. An address is an
element address: the index in WAVE (R71), 7·index + field in WT (R72), 3·index + field in CB (R73). There is no byte
addressing inside the VEA (R70), so an element is the unit (log entry 3). An address that is not listed has no value of
its own: the model reads a free value there (R78, log entry 4). -/
abbrev Memory (w : Nat) := List (Nat × BitVec w)

/-- What an unlisted address holds: no value (R78: "the hardware gives no value"); the read supplies a free one. -/
def Memory.unlisted (w : Nat) : Option (BitVec w) := none

/-- The addresses of a memory rise strictly: its one canonical form. -/
def Memory.wf {w : Nat} : Memory w → Bool
  | [] => true
  | [_] => true
  | (a, _) :: (b, y) :: rest => decide (a < b) && Memory.wf ((b, y) :: rest)

/-- The ten buses (R47), each CHUNK signed 32-bit accumulators: live, and their delay copies. -/
structure Buses where
  l   : List (BitVec 32)
  r   : List (BitVec 32)
  m   : List (BitVec 32)
  e1  : List (BitVec 32)
  e2  : List (BitVec 32)
  dl  : List (BitVec 32)
  dr  : List (BitVec 32)
  dm  : List (BitVec 32)
  de1 : List (BitVec 32)
  de2 : List (BitVec 32)
deriving DecidableEq, Repr

/-- An all-zero bus of n frames. -/
def zeroBus (n : Nat) : List (BitVec 32) := List.replicate n 0

/-- All ten buses zero (R47). -/
def Buses.zero (n : Nat) : Buses where
  l := zeroBus n
  r := zeroBus n
  m := zeroBus n
  e1 := zeroBus n
  e2 := zeroBus n
  dl := zeroBus n
  dr := zeroBus n
  dm := zeroBus n
  de1 := zeroBus n
  de2 := zeroBus n

/-! ## Transitions in the schedule -/

/-- The four transitions of R5. A disabled one (R81, R82) in the schedule changes nothing: SINK waits (log entry 2). -/
inductive Event where
  /-- `Cmd(w)`: HOST delivers command word w (R103). -/
  | cmd (w : CmdWord)
  /-- `Refill` (R81). -/
  | refill
  /-- `PullByte` (R82). -/
  | pullByte
  /-- `Reset` (R380). -/
  | reset
deriving DecidableEq, Repr

/-! ## Why a step can stop -/

/-- Why the machine could stop with a fault: for no reason. R385: no command, table content or schedule can stop the
machine, so this type has no constructor and no step faults. -/
inductive Fault : Type
deriving DecidableEq, Repr

/-- Why a step could be refused. -/
inductive Refusal where
  /-- Raised by an arm of `exec` for an instruction without a meaning. Safe: the model stops. No arm raises it now. -/
  | notModelled (mnemonic : String)
deriving DecidableEq, Repr

/-! ## The state -/

/-- The state of the VEA (R20). -/
structure State where
  /-- MODEL'S OWN (log entry 1): the configuration of R7, a parameter of the step relation, the same in every state of a
  run. -/
  cfg     : Config
  /-- `RUN` (R22). -/
  run     : Bool
  /-- `IDLE` (R23). -/
  idle    : Bool
  /-- `SILCNT` (R23). -/
  silcnt  : BitVec 3
  /-- `TICKCNT` (R24). -/
  tickcnt : BitVec 32
  /-- `CMDSEEN` (R25). -/
  cmdseen : Bool
  /-- `ASEN` (R26). -/
  asen    : Bool
  /-- `ASCNT` (R26). -/
  ascnt   : BitVec 16
  /-- `ERR` (R27, R350). -/
  err     : BitVec 16
  /-- `IEN` (R27). -/
  ien     : BitVec 16
  /-- `MVOL` (R28). -/
  mvol    : BitVec 16
  /-- `MBAL` (R28). -/
  mbal    : BitVec 16
  /-- `MFINE` (R28). -/
  mfine   : BitVec 16
  /-- `MCOARSE` (R28). -/
  mcoarse : BitVec 16
  /-- `GPREVL` (R29). -/
  gprevl  : BitVec 16
  /-- `GPREVR` (R29). -/
  gprevr  : BitVec 16
  /-- `WPTR`, 0 to WAVE_SIZE (R30). WAVE_SIZE may be 2^32 (R7), which the pointer may reach (R161): bit 32 is for that value
  alone (DEDUCED, log entry 7). -/
  wptr    : BitVec 33
  /-- `RSP` (R31). -/
  rsp     : BitVec 32
  /-- `FXST` (R32). -/
  fxst    : FxState
  /-- `LR` (R33). -/
  lr      : LaunchRec
  /-- `CH[0..15]` (R34). -/
  chans   : Vector Channel 16
  /-- `V[0..NV−1]` (R35 to R46). -/
  voices  : List Voice
  /-- WAVE (R71). -/
  wave    : Memory 16
  /-- WT (R72). -/
  wt      : Memory 32
  /-- CB (R73). -/
  cb      : Memory 32
  /-- The ten buses (R47). -/
  buses   : Buses
  /-- `OUTBUF` (R48). -/
  outbuf  : List Byte
  /-- `OUTRD` (R48). -/
  outrd   : Nat
  /-- MODEL'S OWN (log entry 2): the transitions HOST, SINK and the reset input still cause, in the order they happen. -/
  sched   : List Event
  /-- MODEL'S OWN (log entry 6): the bytes SINK has received, in order (R82). -/
  sinkGot : List Byte
  /-- MODEL'S OWN (log entry 4): how many `Reset` transitions have happened; the free contents of the memories depend on it. -/
  epoch   : Nat
  /-- MODEL'S OWN (log entry 5): how many hazard reads (R386) have taken a free value. -/
  freeCtr : Nat
deriving DecidableEq, Repr

/-- Every element of state at the value R51 gives it after `Reset`, for configuration `cfg`; no transition is scheduled. -/
def State.init (cfg : Config) : State where
  cfg := cfg
  run := false
  idle := false
  silcnt := 0
  tickcnt := 0
  cmdseen := false
  asen := false
  ascnt := 0
  err := 0
  ien := 0
  mvol := 32768
  mbal := 16384
  mfine := 16384
  mcoarse := 16384
  gprevl := 32768
  gprevr := 32768
  wptr := 0
  rsp := 0
  fxst := cfg.fx.init
  lr := .zero
  chans := Vector.replicate 16 (Channel.reset cfg)
  voices := List.replicate cfg.nv Voice.reset
  wave := []
  wt := []
  cb := []
  buses := .zero cfg.chunk
  outbuf := List.replicate cfg.outBytes 0
  outrd := cfg.outBytes
  sched := []
  sinkGot := []
  epoch := 0
  freeCtr := 0

/-- The machine right after reset (R51, R381), in the reference configuration REF (R15). -/
def State.reset : State := State.init Config.ref

end Sys2Proof.Machine
end

