-- ==== Sys2Proof/Machine/Flags.lean ====
section
/-! DEFINITION. The error and event bits (R350), the two status words the read commands answer (R127, R199), and the
interrupt line (R359). -/

namespace Sys2Proof.Machine

/-- The implemented bits of `ERR` (R350). -/
inductive ErrBit where
  | illop
  | range
  | vbusy
  | wtbad
  | cbbad
  | wdog
  | vdone
  | idle
deriving DecidableEq, Repr

/-- The bit number of an error or event (R350). -/
def ErrBit.num : ErrBit → Nat
  | .illop => 0
  | .range => 1
  | .vbusy => 2
  | .wtbad => 3
  | .cbbad => 4
  | .wdog => 5
  | .vdone => 8
  | .idle => 9

/-- The word with just that bit set. -/
def ErrBit.mask (b : ErrBit) : BitVec 16 := BitVec.twoPow 16 b.num

/-- The bit if the condition holds, else no bit. -/
def ErrBit.maskIf (b : ErrBit) (c : Bool) : BitVec 16 := if c then b.mask else 0

/-- The implemented bits of `ERR` and `IEN`: 0x033F (R27, R350). -/
def errMask : BitVec 16 := 0x033F

/-- `irq` = 1 iff (`ERR` & `IEN`) ≠ 0, a level recomputed after every transition (R90, R359). -/
def State.irq (s : State) : Bool := decide (s.err &&& s.ien ≠ 0)

/-- `OUT_EMPTY` = (`OUTRD` = 4·CHUNK) (R127). -/
def State.outEmpty (s : State) : Bool := decide (s.outrd = s.cfg.outBytes)

/-- The `STATUS` word, `RDG 1` (R127): bit 0 `RUN`, 1 `IDLE`, 2 `ASEN`, 6:4 `SILCNT`, 8 `CMDSEEN`, 9 `OUT_EMPTY`. -/
def State.status (s : State) : Word :=
  0#22 ++ BitVec.ofBool s.outEmpty ++ BitVec.ofBool s.cmdseen ++ 0#1 ++ s.silcnt ++ 0#1 ++ BitVec.ofBool s.asen ++
    BitVec.ofBool s.idle ++ BitVec.ofBool s.run

/-- The derived bit `PORTA` = (`GOFS` ≠ 0) (R36, R44). -/
def Voice.porta (v : Voice) : Bool := decide (v.gofs ≠ 0)

/-- The `FLAGS` word, `RDV v, 0` (R199). -/
def Voice.flagsWord (v : Voice) : Word :=
  0#1 ++ v.ident.vel ++ 0#1 ++ v.ident.note ++ v.ident.chan ++ 0#1 ++ BitVec.ofBool v.pos.ended ++
    BitVec.ofBool v.flags.first ++ BitVec.ofBool v.flags.final ++ BitVec.ofBool v.ident.reltrig ++
    BitVec.ofBool v.flags.silencing ++ BitVec.ofBool v.porta ++ BitVec.ofBool v.flags.sost ++
    BitVec.ofBool v.flags.sus ++ BitVec.ofBool v.flags.on ++ BitVec.ofBool v.pend.valid ++ BitVec.ofBool v.act

/-- The code of an envelope stage (R240). -/
def EgStage.code : EgStage → BitVec 3
  | .idle => 0
  | .attack => 1
  | .decay => 2
  | .sustain => 3
  | .release => 4
  | .done => 5

/-- An envelope generator as `RDV` shows it: `LEVEL` in bits 15:0, `STAGE` in bits 26:24 (R199). -/
def Eg.word (e : Eg) : Word := 0#5 ++ e.stage.code ++ 0#8 ++ e.level

/-- An LFO as `RDV` shows it: `OUT` in bits 15:0, `DCNT` in bits 31:16 (R199). -/
def Lfo.word (l : Lfo) : Word := l.dcnt ++ l.out

/-- A slot is busy if it is not FREE: `ACT` = 1 or `PEND.VALID` = 1 (R127). -/
def Voice.busy (v : Voice) : Bool := v.act || v.pend.valid

/-- `BUSY`, `RDG 9`: the number of busy slots (R127). -/
def State.busyCount (s : State) : Nat := s.voices.countP Voice.busy

end Sys2Proof.Machine
end

