-- ==== Sys2Proof/Machine/Operands.lean ====
section
/-! DEFINITION. The operand forms of the machine: how a command's data is narrowed to a field (R106, R123), and the forms a
connection-block entry holds (R107 to R110): source selectors, transform bytes, destination numbers. -/

namespace Sys2Proof.Machine

/-! ## Fields of `D` (R106) -/

/-- `D[3:0]`. -/
def low4 (d : Word) : BitVec 4 := d.setWidth 4
/-- `D[6:0]`. -/
def low7 (d : Word) : BitVec 7 := d.setWidth 7
/-- `D[13:0]`. -/
def low14 (d : Word) : BitVec 14 := d.setWidth 14
/-- `D[15:0]`. -/
def low16 (d : Word) : BitVec 16 := d.setWidth 16
/-- `D[1:0]`. -/
def low2 (d : Word) : BitVec 2 := d.setWidth 2
/-- `D[0]`. -/
def bit0 (d : Word) : Bool := d.getLsbD 0
/-- `D[1]`. -/
def bit1 (d : Word) : Bool := d.getLsbD 1

/-- min(`D`, 32768): the one field that saturates (R123). -/
def saturated (d : Word) : BitVec 16 := BitVec.ofNat 16 (min d.toNat one)

/-- The loop mode of a 2-bit code (R111). -/
def LoopMode.ofBits (b : BitVec 2) : LoopMode :=
  match b.toNat with
  | 0 => .off
  | 1 => .forward
  | 2 => .release
  | _ => .pingpong

/-! ## Source selectors (R107) -/

/-- A control-signal source (R107). -/
inductive Source where
  /-- Category 0: an absent source. -/
  | none
  | pitchBend
  | chanPressure
  | polyPressure
  | cc (n : Nat)
  | rpn (slot : Nat)
  | nrpn (slot : Nat)
  /-- `NOTEON(0)` -/
  | gate
  /-- `NOTEON(1)` -/
  | velocity
  /-- `NOTEON(2)` -/
  | keyNumber
  | eg0
  | eg1
  | lfo0
  | lfo1
  | mvol
  | mbal
  | mfine
  | mcoarse
  /-- A reserved category or an index outside its legal range (R222 b). -/
  | bad
deriving DecidableEq, Repr

/-- A selector from its category and index (R107). -/
def Source.ofCatIdx (cfg : Config) (cat idx : Nat) : Source :=
  match cat, idx with
  | 0, _ => .none
  | 1, 0 => .pitchBend
  | 1, 1 => .chanPressure
  | 1, 2 => .polyPressure
  | 2, n => if n ≤ 127 then .cc n else .bad
  | 3, j => if j < cfg.nRpn then .rpn j else .bad
  | 4, j => if j < cfg.nNrpn then .nrpn j else .bad
  | 5, 0 => .gate
  | 5, 1 => .velocity
  | 5, 2 => .keyNumber
  | 6, 0 => .eg0
  | 6, 1 => .eg1
  | 7, 0 => .lfo0
  | 7, 1 => .lfo1
  | 8, 0 => .mvol
  | 8, 1 => .mbal
  | 8, 2 => .mfine
  | 8, 3 => .mcoarse
  | _, _ => .bad

/-- The source a 16-bit selector names: `CAT` = bits 15:12, `IDX` = bits 11:0 (R107). -/
def Source.ofSelector (cfg : Config) (sel : BitVec 16) : Source :=
  Source.ofCatIdx cfg (sel.extractLsb' 12 4).toNat (sel.extractLsb' 0 12).toNat

/-! ## Transform bytes (R108) -/

/-- `SHAPE`, bits 3:2 of a transform byte (R108). -/
inductive Shape where
  | linear
  | concave
  | switch
  | reserved
deriving DecidableEq, Repr

/-- A transform (R108). -/
structure Xform where
  /-- `INV`, bit 0. -/
  inv   : Bool
  /-- `BIP`, bit 1. -/
  bip   : Bool
  shape : Shape
deriving DecidableEq, Repr

/-- The shape of a 2-bit code (R108). -/
def Shape.ofBits (b : BitVec 2) : Shape :=
  match b.toNat with
  | 0 => .linear
  | 1 => .concave
  | 2 => .switch
  | _ => .reserved

/-- The transform a byte encodes; bits 7:4 are ignored (R108). -/
def Xform.ofByte (b : BitVec 8) : Xform where
  inv := b.getLsbD 0
  bip := b.getLsbD 1
  shape := Shape.ofBits (b.extractLsb' 2 2)

/-! ## Connection-block entries (R110) -/

/-- A connection-block entry, its three words taken apart (R110). -/
structure CbEntry where
  src1  : BitVec 16
  src2  : BitVec 16
  xf1   : BitVec 8
  xf2   : BitVec 8
  /-- `DSTN`, the destination number (R109). -/
  dstn  : BitVec 8
  /-- Signed Q16.16. -/
  scale : BitVec 32
deriving DecidableEq, Repr

/-- The entry whose words are `SRC`, `XFD`, `SCALE` (R110); bits 31:24 of `XFD` are ignored. -/
def CbEntry.ofWords (src xfd scale : Word) : CbEntry where
  src1 := src.extractLsb' 0 16
  src2 := src.extractLsb' 16 16
  xf1 := xfd.extractLsb' 0 8
  xf2 := xfd.extractLsb' 8 8
  dstn := xfd.extractLsb' 16 8
  scale := scale

end Sys2Proof.Machine
end

