-- ==== Sys2Proof/Machine/Ops.lean ====
section
/-! DEFINITION. The named operations over memory, registers and the schedule, and the shared stages of every command:
activity marking, the closed set, range checks, and raising an error bit, which is what the VEA has in place of taking an
exception (R361); clearing bits stands in place of the return from one (R362). -/

namespace Sys2Proof.Machine

/-! ## Table memories -/

/-- The element at an address, if HOST has written it (R70). -/
def Memory.read? {w : Nat} : Memory w → Nat → Option (BitVec w)
  | [], _ => Memory.unlisted w
  | (b, y) :: rest, a => if a = b then some y else Memory.read? rest a

/-- Write one element, keeping the canonical form (R70, R76). -/
def Memory.write {w : Nat} : Memory w → Nat → BitVec w → Memory w
  | [], a, x => [(a, x)]
  | (b, y) :: rest, a, x =>
    if a < b then (a, x) :: (b, y) :: rest
    else if a = b then (a, x) :: rest
    else (b, y) :: Memory.write rest a x

/-- The element address of a field of a WT descriptor: seven fields each (R72). -/
def wtAddr (index field : Nat) : Nat := 7 * index + field

/-- The element address of a field of a CB entry: three fields each (R73). -/
def cbAddr (index field : Nat) : Nat := 3 * index + field

/-- `MemRead(WAVE, a)` (R71); an element never written holds a free value (R78). -/
def State.waveRead (s : State) (a : Nat) : BitVec 16 := (s.wave.read? a).getD (Config.waveInit s.epoch a)

/-- `MemRead(WT, (index, field))` (R72). -/
def State.wtRead (s : State) (index field : Nat) : Word :=
  (s.wt.read? (wtAddr index field)).getD (Config.wtInit s.epoch index field)

/-- `MemRead(CB, (index, field))` (R73). -/
def State.cbRead (s : State) (index field : Nat) : Word :=
  (s.cb.read? (cbAddr index field)).getD (Config.cbInit s.epoch index field)

/-- `MemWrite(WAVE, a, x)` (R71). -/
def State.waveWrite (s : State) (a : Nat) (x : BitVec 16) : State := { s with wave := s.wave.write a x }

/-- `MemWrite(WT, (index, field), x)` (R72). -/
def State.wtWrite (s : State) (index field : Nat) (x : Word) : State :=
  { s with wt := s.wt.write (wtAddr index field) x }

/-- `MemWrite(CB, (index, field), x)` (R73). -/
def State.cbWrite (s : State) (index field : Nat) (x : Word) : State :=
  { s with cb := s.cb.write (cbAddr index field) x }

/-- Descriptor `index` as its seven fields read now (R111); `LMODE` is stored in 2 bits. -/
def State.descAt (s : State) (index : Nat) : Desc where
  base := s.wtRead index 0
  len := s.wtRead index 1
  lstart := s.wtRead index 2
  llen := s.wtRead index 3
  lmode := LoopMode.ofBits (low2 (s.wtRead index 4))
  rate := s.wtRead index 5
  corr := s.wtRead index 6

/-- Entry `index` of CB as its three words read now (R110). -/
def State.cbAt (s : State) (index : Nat) : CbEntry :=
  CbEntry.ofWords (s.cbRead index 0) (s.cbRead index 1) (s.cbRead index 2)

/-! ## Register files -/

/-- `CH[c]`. -/
def State.chan (s : State) (c : BitVec 4) : Channel := s.chans[c.toFin]

/-- Rewrite `CH[c]`. -/
def State.updChan (s : State) (c : BitVec 4) (f : Channel → Channel) : State :=
  { s with chans := s.chans.set c.toFin (f (s.chan c)) }

/-- `V[v]`; a slot number is compared with NV before it is used. -/
def State.voice (s : State) (v : Nat) : Voice := s.voices.getD v Voice.reset

/-- Rewrite `V[v]`. -/
def State.updVoice (s : State) (v : Nat) (f : Voice → Voice) : State :=
  { s with voices := s.voices.modify v f }

/-- `V[v].DST[k]` as a signed number (R40). -/
def Voice.dstVal (v : Voice) (k : Fin 24) : Int := v.dst[k].toInt

/-! ## Errors and events: the VEA's exceptions -/

/-- `raise X`: set bit X of `ERR` (R350, R361). It saves nothing, changes no mode and redirects nothing. -/
def State.raise (s : State) (b : ErrBit) : State := { s with err := s.err ||| b.mask }

/-- Raise every bit of a word of error bits. -/
def State.raiseAll (s : State) (bits : BitVec 16) : State := { s with err := s.err ||| bits }

/-- Clear the `ERR` bits that the mask has set, as `ERRCLR` does (R125, R362). -/
def State.clearErr (s : State) (mask : Word) : State := { s with err := s.err &&& ~~~low16 mask &&& errMask }

/-- `Respond(r)`: put r on the response port and in `RSP` (R9, R85). -/
def State.respond (s : State) (r : Word) : State := { s with rsp := r }

/-! ## The stages of a command (R103) -/

/-- Activity marking (R104). -/
def State.mark (s : State) : State := { s with cmdseen := true, ascnt := 0, idle := false }

/-- A command that marks activity and works whether the machine is open or closed. -/
def activityCommand (s : State) (effect : State → State) : State := effect s.mark

/-- A command of the closed set: activity marking, and while `RUN` = 0 nothing else (R105). -/
def closedSetCommand (s : State) (effect : State → State) : State := if s.run then effect s.mark else s.mark

/-- A range check: if it fails, `raise RANGE` and nothing else (R352). -/
def checkRange (ok : Bool) (effect : State → State) (s : State) : State := if ok then effect s else s.raise .range

/-- A closed-set command on channel `A`: `A` > 15 raises `RANGE` (R140 to R146). -/
def channelCommand (chan : BitVec 8) (effect : BitVec 4 → State → State) (s : State) : State :=
  closedSetCommand s (checkRange (decide (chan.toNat ≤ 15)) (effect (chan.setWidth 4)))

/-- A closed-set command on slot `A`: `A` ≥ NV raises `RANGE` (R182, R188 to R195). -/
def slotCommand (slot : BitVec 8) (effect : Nat → State → State) (s : State) : State :=
  closedSetCommand s (fun s => checkRange (decide (slot.toNat < s.cfg.nv)) (effect slot.toNat) s)

/-- The outcome of a command: every command leaves a next state (R385). -/
def done (s : State) : Host.Outcome State Fault Refusal := .next s

/-- A word with an undefined opcode: `ILLOP`, and nothing else changes (R103 stage 1, R115, R351). -/
def undefinedOpcode (s : State) : State := s.raise .illop

/-! ## The schedule -/

/-- The next scheduled transition, and the state without it. -/
def takeEvent (s : State) : Option (Event × State) :=
  match s.sched with
  | [] => none
  | e :: rest => some (e, { s with sched := rest })

/-- The same state with one more transition scheduled, before all others. -/
def State.schedule (s : State) (e : Event) : State := { s with sched := e :: s.sched }

/-- The command word of an opcode-table row: 64 bits, those at or above `nbits` 0. -/
def tableWord (nbits w : Nat) : CmdWord := BitVec.ofNat 64 (w % 2 ^ nbits)

/-! ## The WAVE write hazard (R386) -/

/-- Is WAVE element `a` inside the view [`BASE`, `BASE` + `LEN`) of the snapshot? -/
def Desc.covers (d : Desc) (a : Nat) : Bool := decide (d.base.toNat ≤ a) && decide (a < d.base.toNat + d.len.toNat)

/-- A `WWR` to element `a`, which held `old`: a slot that is not FREE and whose view covers the element may from now on read
either value there (R386). -/
def Voice.noteRewrite (v : Voice) (a : Nat) (old : BitVec 16) : Voice :=
  if v.act && v.desc.covers a then { v with stale := (a, old) :: v.stale } else v

/-- The earlier values a voice may still read at element `a`. -/
def staleAt (stale : List (Nat × BitVec 16)) (a : Nat) : List (BitVec 16) :=
  (stale.filter fun e => decide (e.1 = a)).map Prod.snd

/-- A voice reads WAVE element `a`: the value it holds, or, after a hazard, freely one of the values it has held since
(R386). The counter of free reads comes back advanced if a free value was taken. -/
def State.voiceRead (s : State) (stale : List (Nat × BitVec 16)) (ctr a : Nat) : BitVec 16 × Nat :=
  match staleAt stale a with
  | [] => (s.waveRead a, ctr)
  | old :: olds =>
    ((s.waveRead a :: old :: olds).getD (Config.hazardPick ctr % (olds.length + 2)) (s.waveRead a), ctr + 1)

end Sys2Proof.Machine
end

