-- ==== Sys2Proof/Machine/Generators.lean ====
section
/-! DEFINITION. Envelope generators and low-frequency oscillators (45_envelope_lfo.md). -/

namespace Sys2Proof.Machine

/-! ## Envelope generators -/

/-- `EgTime(x)` = clamp(asr(x, 16), 1, 65535) (R243). -/
def egTime (x : Int) : Nat := (clamp (asr x 16) 1 65535).toNat

/-- `EgStep(T)` = ceil(32768 / T) (R243). -/
def egStep (t : Nat) : Nat := (one + t - 1) / t

/-- A Q16.16 level destination as Q15: clamp(asr(x, 1), 0, 32768) (R221, R242). -/
def levelOf (x : Int) : Nat := (clamp (asr x 1) 0 32768).toNat

/-- `EgAdvance`, part 1: the gate transitions (R244). -/
def egGate (st : EgStage) (gate : Bool) : EgStage :=
  match st, gate with
  | .attack, false => .release
  | .decay, false => .release
  | .sustain, false => .release
  | .idle, true => .attack
  | st, _ => st

/-- `EgAdvance`, part 2: the step of the stage the EG is now in, with attack, decay and release times a, d, r in ticks and
sustain level sl (R245 to R249). -/
def egStepStage (st : EgStage) (level a d sl r : Nat) : Eg :=
  match st with
  | .attack =>
    { stage := if min one (level + egStep a) = one then .decay else .attack
      level := BitVec.ofNat 16 (min one (level + egStep a)) }
  | .decay =>
    if level ≤ sl + egStep d then { stage := .sustain, level := BitVec.ofNat 16 sl }
    else { stage := .decay, level := BitVec.ofNat 16 (level - egStep d) }
  | .sustain => { stage := .sustain, level := BitVec.ofNat 16 sl }
  | .release =>
    { stage := if level - egStep r = 0 then .done else .release
      level := BitVec.ofNat 16 (level - egStep r) }
  | .idle => { stage := .idle, level := BitVec.ofNat 16 level }
  | .done => { stage := .done, level := BitVec.ofNat 16 level }

/-- `EgAdvance` of one EG with its five destinations: gate, attack, decay, sustain, release (R242, R244). -/
def egAdvance (e : Eg) (dOn dAttack dDecay dSustain dRelease : Int) : Eg :=
  egStepStage (egGate e.stage (decide (0 < dOn))) e.level.toNat (egTime dAttack) (egTime dDecay) (levelOf dSustain)
    (egTime dRelease)

/-! ## Low-frequency oscillators -/

/-- `LfoInc(F)` = min((max(F, 0)·65536) div CTRL_RATE, 2^32 − 1) (R252). -/
def lfoInc (cfg : Config) (f : Int) : Nat := min ((max f 0).toNat * 65536 / cfg.ctrlRate) 4294967295

/-- q of R253: the top half of the phase a quarter turn on. -/
def lfoQ (ph : BitVec 32) : Nat := (ph + 0x40000000#32).toNat >>> 16

/-- `LfoTri(PH)`: a triangle from the centre, rising (R253). -/
def lfoTri (ph : BitVec 32) : BitVec 16 :=
  BitVec.ofNat 16 (if lfoQ ph < 32768 then lfoQ ph else 65536 - lfoQ ph)

/-- `LfoAdvance` (R254). -/
def lfoAdvance (cfg : Config) (o : Lfo) (f : Int) : Lfo :=
  if o.dcnt = 0 then
    { o with ph := o.ph + BitVec.ofNat 32 (lfoInc cfg f), out := lfoTri (o.ph + BitVec.ofNat 32 (lfoInc cfg f)) }
  else { o with dcnt := o.dcnt - 1, out := 16384 }

/-- The delay an LFO is started with: clamp(asr(`DST`, 16), 0, 65535) ticks (R255). -/
def lfoDelay (x : Int) : BitVec 16 := BitVec.ofInt 16 (clamp (asr x 16) 0 65535)

end Sys2Proof.Machine
end

