-- ==== Sys2Proof/Machine/Rom.lean ====
section
/-! DEFINITION. The three ROM functions (R12, R13, R14), computed exactly.

`Exp2C` and `CbToAmp` are floors of real powers. Each is computed between a lower and an upper bound that are products of
tabled factors with 96 fraction bits; where the two bounds have the same floor, that floor is the value, and where they had
not, the value is searched downwards by the exact test on integers. So the definitions are the spec's floors, for every
argument of their domains. -/

namespace Sys2Proof.Machine

/-- The scale of the tabled factors, 2^96. -/
def romScale : Nat := 2 ^ 96

/-- Multiply the bounds (l, u) by the tabled factors that the binary digits of r select, lowest digit first. A factor `a`
stands for a real number x with a ≤ x·2^96 ≤ a + 1. -/
def romProduct : List Nat → Nat → Nat → Nat → Nat × Nat
  | [], _, l, u => (l, u)
  | a :: as, r, l, u =>
    if r % 2 = 1 then romProduct as (r / 2) (l * a / romScale) (u * (a + 1) / romScale + 1)
    else romProduct as (r / 2) l u

/-- The greatest y ≤ the given bound that passes the test, else 0. -/
def greatestDown (test : Nat → Bool) : Nat → Nat
  | 0 => 0
  | y + 1 => if test (y + 1) then y + 1 else greatestDown test y

/-! ## Cents to ratio (R12) -/

/-- One octave in Q16.16 cents, 1200·65536 (R12). -/
def octave : Nat := 78643200

/-- `C_MIN` = −14400 cents in Q16.16 (R12). -/
def cMin : Int := -943718400

/-- `C_MAX` = 9600 cents in Q16.16 (R12). -/
def cMax : Int := 629145600

/-- floor(2^96 · 2^(2^j / 78643200)) for j = 0 to 26. -/
def exp2Factors : List Nat :=
  [
   79228163212567276814237281029, 79228163910870222189648573741, 79228165307476131404625262207,
   79228168100688023691196570210, 79228173687112103690823061738, 79228184859961445396108756784,
   79228207205664855631588674143, 79228251897090583408404054041, 79228341280017668235228509792,
   79228520046174355379824748101, 79228877579697802818193613927, 79229592651585015774841368272,
   79231022814720917875137666155, 79233883218440257790218937443, 79239604335682128651831589588,
   79251047809483026954996108690, 79273939715188702585654373947, 79319743365699401129262466761,
   79411430076617802564726693072, 79595121566503411603061483663, 79963780253591343243002644260,
   80706228057395928415886523365, 82211868110404604327154555770, 85307939042328544289443191505,
   91854262836644766760669515588, 106492506370375241907846361189, 143139176186278786251549535632]

/-- The exact test y ≤ 8·2^(k / 78643200), on integers. -/
def exp2Le (k y : Nat) : Bool := decide (y ^ octave ≤ 2 ^ (3 * octave + k))

/-- The lower and the upper bound of 8·2^(k / 78643200), as whole numbers. -/
def exp2Bounds (k : Nat) : Nat × Nat :=
  ((romProduct exp2Factors (k % octave) romScale romScale).1 * 2 ^ (k / octave + 3) / romScale,
   (romProduct exp2Factors (k % octave) romScale romScale).2 * 2 ^ (k / octave + 3) / romScale)

/-- floor(8·2^(k / 78643200)), k Q16.16 cents above `C_MIN`. -/
def exp2Above (k : Nat) : Nat :=
  if (exp2Bounds k).1 = (exp2Bounds k).2 then (exp2Bounds k).1 else greatestDown (exp2Le k) (exp2Bounds k).2

/-- `Exp2C(c)` = floor(32768 · 2^(c / 78643200)) for `C_MIN` ≤ c ≤ `C_MAX` (R12). -/
def exp2C (c : Int) : Nat := exp2Above (c - cMin).toNat

/-! ## Centibels to amplitude (R13) -/

/-- A factor of ten in amplitude, 200·65536 in Q16.16 centibels (R13). -/
def decade : Nat := 13107200

/-- −960 cB in Q16.16 (R13). -/
def cbFloor : Int := -62914560

/-- floor(2^96 · 10^(−2^j / 13107200)) for j = 0 to 25. -/
def cbFactors : List Nat :=
  [
   79228148595992706226672642078, 79228134677723519928310522514, 79228106841192482535395716666,
   79228051168159748552776912718, 79227939822211643704167196205, 79227717130784885703737626001,
   79227271749809170332280541513, 79226380995368892845175053274, 79224599516532556803956339335,
   79221036679033607798009251533, 79213911484705381911585264264, 79199663018525874208918906488,
   79171173774460951788459081669, 79114226026602365830103344967, 79000453388798939119177121726,
   78773398720589328713664323416, 78321245237458887262010353259, 77424709356875015716650262382,
   75662307805223892554413007522, 72256942995260642885636542470, 65899115230399781889700843822,
   54812496596366784888354963265, 37920982738755334360309276564, 18150123469215640721095686398,
   4157953074936730471663994890, 218212479309527791878445876]

/-- The exact test y ≤ 32768·10^(−m / 13107200), on integers. -/
def cbLe (m y : Nat) : Bool := decide (y ^ decade * 10 ^ m ≤ 32768 ^ decade)

/-- The lower and the upper bound of 32768·10^(−m / 13107200), as whole numbers. -/
def cbBounds (m : Nat) : Nat × Nat :=
  ((romProduct cbFactors m romScale romScale).1 * 32768 / romScale,
   (romProduct cbFactors m romScale romScale).2 * 32768 / romScale)

/-- floor(32768·10^(−m / 13107200)). -/
def cbBelow (m : Nat) : Nat :=
  if (cbBounds m).1 = (cbBounds m).2 then (cbBounds m).1 else greatestDown (cbLe m) (cbBounds m).2

/-- `CbToAmp(c)` (R13). -/
def cbToAmp (c : Int) : Nat :=
  if 0 ≤ c then one else if c ≤ cbFloor then 0 else cbBelow (-c).toNat

/-! ## Concave (R14) -/

/-- `Concave(x)` = 32768 − ceilsqrt(32768² − x²) (R14). -/
def concave (x : Nat) : Nat := one - ceilsqrt (one * one - x * x)

end Sys2Proof.Machine
end

