-- ==== Sys2Proof/Machine/Graph.lean ====
section
/-! DEFINITION. The modulation-graph datapath (44_modulation_graph.md): sources, transforms, contributions, destination
sums, the init-time and the per-tick evaluation. -/

namespace Sys2Proof.Machine

/-- `Source(v, s)`: the Q15 unipolar value of a source (R212); a bad selector yields 0 (R222 b). -/
def sourceValue (s : State) (v : Voice) : Source → Nat
  | .none => 0
  | .pitchBend => 2 * (s.chan v.ident.chan).pb.toNat
  | .chanPressure => 256 * (s.chan v.ident.chan).cp.toNat
  | .polyPressure => 256 * v.pp.toNat
  | .cc n => 256 * ((s.chan v.ident.chan).cc.toList.getD n 0).toNat
  | .rpn j => 2 * ((s.chan v.ident.chan).rpn.getD j 0).toNat
  | .nrpn j => 2 * ((s.chan v.ident.chan).nrpn.getD j 0).toNat
  | .gate => if v.flags.on then one else 0
  | .velocity => 256 * (if v.forced.fvelv then v.forced.fvel else v.ident.vel).toNat
  | .keyNumber => 256 * (if v.forced.fkeyv then v.forced.fkey else v.ident.note).toNat
  | .eg0 => v.eg0.level.toNat
  | .eg1 => v.eg1.level.toNat
  | .lfo0 => v.lfo0.out.toNat
  | .lfo1 => v.lfo1.out.toNat
  | .mvol => s.mvol.toNat
  | .mbal => s.mbal.toNat
  | .mfine => s.mfine.toNat
  | .mcoarse => s.mcoarse.toNat
  | .bad => 0

/-- Direction: t0 (R213). -/
def direct (x : Xform) (u : Nat) : Nat := if x.inv then one - u else u

/-- Shaping: t1 from t0 (R214); the reserved shape is linear. -/
def shapeValue : Shape → Nat → Nat
  | .linear, t => t
  | .concave, t => concave t
  | .switch, t => if 16384 ≤ t then one else 0
  | .reserved, t => t

/-- Direction, shape, polarity, in that order (R213, R214, R215). -/
def transformValue (x : Xform) (u : Nat) : Int :=
  if x.bip then 2 * (shapeValue x.shape (direct x u) : Int) - 32768 else (shapeValue x.shape (direct x u) : Int)

/-- `Transform(v, s, xf)`; an absent source transforms to 32768 whatever the byte is (R215). -/
def transform (s : State) (v : Voice) (sel : BitVec 16) (xf : BitVec 8) : Int :=
  match Source.ofSelector s.cfg sel with
  | .none => 32768
  | src => transformValue (Xform.ofByte xf) (sourceValue s v src)

/-- Does evaluating this source raise `CBBAD`: a bad selector or the reserved shape (R222 b, c)? An absent source is not
transformed. -/
def transformBad (cfg : Config) (sel : BitVec 16) (xf : BitVec 8) : Bool :=
  match Source.ofSelector cfg sel with
  | .none => false
  | .bad => true
  | _ => decide ((Xform.ofByte xf).shape = .reserved)

/-- `Contribution(v, e)` of an entry whose destination exists (R216): one exact product and one shift. -/
def contribution (s : State) (v : Voice) (e : CbEntry) : Int :=
  asr (e.scale.toInt * transform s v e.src1 e.xf1 * transform s v e.src2 e.xf2) 30

/-- Does evaluating the sources of this entry raise `CBBAD` (R222 b, c)? -/
def entryBad (cfg : Config) (e : CbEntry) : Bool := transformBad cfg e.src1 e.xf1 || transformBad cfg e.src2 e.xf2

/-- The block list of a voice: entries `CBBASE` .. `CBBASE` + `CBCNT` − 1 of CB as they are now (R210, R211). -/
def blockList (s : State) (v : Voice) : List CbEntry :=
  (List.range v.ident.cbcnt.toNat).map fun k => s.cbAt (v.ident.cbbase.toNat + k)

/-- The exact sum for destination k over a list of entries (R210). -/
def dstSum (s : State) (v : Voice) (es : List CbEntry) (k : Nat) : Int :=
  ((es.filter fun e => decide (e.dstn.toNat = k)).map (contribution s v)).sum

/-- `EvalTick(v)`: `DST[2..23]` from the state as it is; `DST[0]` and `DST[1]` keep their note-on values (R218). -/
def evalTick (s : State) (v : Voice) : Voice :=
  { v with
    dst := Vector.ofFn fun k =>
      if k.val < 2 then v.dst[k] else BitVec.ofInt 48 (dstSum s v (blockList s v) k.val) }

/-- Does `EvalTick(v)` raise `CBBAD`? Entries for destinations 0 and 1 are not evaluated; a reserved destination number is
itself malformed (R216, R218, R222). -/
def evalTickBad (s : State) (v : Voice) : Bool :=
  (blockList s v).any fun e =>
    decide (24 ≤ e.dstn.toNat) || (decide (2 ≤ e.dstn.toNat) && entryBad s.cfg e)

/-- A forced MIDI value: clamp(asr(`DST`, 16), 0, 127) (R219). -/
def forcedValue (x : Int) : BitVec 7 := BitVec.ofInt 7 (clamp (asr x 16) 0 127)

/-- Is there an entry in the voice's range for destination k (R219)? -/
def targets (s : State) (v : Voice) (k : Nat) : Bool := (blockList s v).any fun e => decide (e.dstn.toNat = k)

/-- `EvalInit(v)`: `DST[0]`, `DST[1]`, and the forced values their blocks set; both sums see the record's own velocity and
key (R219). -/
def evalInit (s : State) (v : Voice) : Voice :=
  { v with
    dst := (v.dst.set 0 (BitVec.ofInt 48 (dstSum s v (blockList s v) 0))).set 1
      (BitVec.ofInt 48 (dstSum s v (blockList s v) 1))
    forced := {
      fvelv := v.forced.fvelv || targets s v 0
      fkeyv := v.forced.fkeyv || targets s v 1
      fvel := if targets s v 0 then forcedValue (dstSum s v (blockList s v) 0) else v.forced.fvel
      fkey := if targets s v 1 then forcedValue (dstSum s v (blockList s v) 1) else v.forced.fkey } }

/-- Does `EvalInit(v)` raise `CBBAD`? Entries with other destinations are skipped and not checked (R219, R222). -/
def evalInitBad (s : State) (v : Voice) : Bool :=
  (blockList s v).any fun e => decide (e.dstn.toNat < 2) && entryBad s.cfg e

end Sys2Proof.Machine
end

