-- ==== Sys2Proof/Machine/Slots.lean ====
section
/-! DEFINITION. The slot state machine (43_voice_commands.md sections 1 and 2): `Validate`, `Init`, takeover, `Promote`,
`Release`, `Silence`, `Deactivate`, and `ChannelOff` (R147). -/

namespace Sys2Proof.Machine

/-- `Release(v)` (R190). -/
def Voice.releaseNote (v : Voice) : Voice :=
  { v with
    flags := { v.flags with on := false, sus := false, sost := false }
    pos := { v.pos with loopen := v.pos.loopen && !decide (v.desc.lmode = .release) } }

/-- `Silence(v)` (R191). -/
def Voice.silence (v : Voice) : Voice :=
  { v.releaseNote with flags := { v.releaseNote.flags with silencing := true } }

/-- `Deactivate(v)`, the voice's part of it: `ACT` <- 0; the caller raises `VDONE` (R192). The voice has ended, so no later
read of its can meet a rewritten sample (R386). -/
def Voice.deactivate (v : Voice) : Voice := { v with act := false, stale := [] }

/-- Is the descriptor playable in a WAVE memory of this size (R184)? Sums are exact. -/
def Desc.valid (d : Desc) (waveSize : Nat) : Bool :=
  decide (1 ≤ d.len.toNat) && decide (d.base.toNat + d.len.toNat ≤ waveSize) && decide (1 ≤ d.rate.toNat) &&
    (decide (d.lmode = .off) || (decide (1 ≤ d.llen.toNat) && decide (d.lstart.toNat + d.llen.toNat ≤ d.len.toNat)))

/-- `Validate(rec)`: the error bit it fails with, or none (R184); `WTBAD` is tested before `CBBAD`. -/
def validate (s : State) (r : LaunchRec) : Option ErrBit :=
  if s.cfg.nwt ≤ r.wt.toNat then some .wtbad
  else if (s.descAt r.wt.toNat).valid s.cfg.waveSize = false then some .wtbad
  else if s.cfg.ncb < r.cbbase.toNat + r.cbcnt.toNat then some .cbbad
  else none

/-- The voice that steps 1 to 6 of `Init` make, before any evaluation (R185). -/
def freshVoice (s : State) (r : LaunchRec) : Voice where
  act := true
  pend := .none
  ident := {
    chan := r.chan
    note := r.note
    vel := r.vel
    vid := r.vid
    wtidx := r.wt
    cbbase := r.cbbase
    cbcnt := r.cbcnt
    excl := r.excl
    reltrig := r.reltrig }
  flags := { on := true, sus := false, sost := false, silencing := false, final := false, first := true }
  forced := .zero
  pp := 0
  dst := Vector.replicate 24 0
  eg0 := .reset
  eg1 := .reset
  lfo0 := .reset
  lfo1 := .reset
  shut := 32768
  gofs := r.gofs
  grate := r.grate
  desc := s.descAt r.wt.toNat
  pos := {
    srci := 0
    frac := 0
    dir := .up
    loopen := !decide ((s.descAt r.wt.toNat).lmode = .off)
    ended := false }
  audio := .reset
  stale := []

/-- Step 8 of `Init`: the LFO delays, from the delay destinations (R185, R255). -/
def Voice.startLfos (v : Voice) : Voice :=
  { v with
    lfo0 := { v.lfo0 with dcnt := lfoDelay (v.dstVal 13) }
    lfo1 := { v.lfo1 with dcnt := lfoDelay (v.dstVal 15) } }

/-- `Init(v, rec)` with rec validated: the voice it makes (R185). Every field is overwritten. -/
def initVoice (s : State) (r : LaunchRec) : Voice :=
  (evalTick s (evalInit s (freshVoice s r))).startLfos

/-- Does `Init(v, rec)` raise `CBBAD` from its two evaluations (R185 step 7)? -/
def initBad (s : State) (r : LaunchRec) : Bool :=
  evalInitBad s (freshVoice s r) || evalTickBad s (evalInit s (freshVoice s r))

/-- Deferred takeover of an active slot (R186). -/
def Voice.takeover (v : Voice) (r : LaunchRec) : Voice :=
  { v.silence with pend := { valid := true, launch := r } }

/-- `Promote` of one slot (R187). -/
def promoteVoice (s : State) (v : Voice) : Voice :=
  if !v.act && v.pend.valid then
    match validate s v.pend.launch with
    | none => initVoice s v.pend.launch
    | some _ => { v with pend := .none }
  else v

/-- The error bits that promoting one slot raises (R187). -/
def promoteErr (s : State) (v : Voice) : BitVec 16 :=
  if !v.act && v.pend.valid then
    match validate s v.pend.launch with
    | none => ErrBit.cbbad.maskIf (initBad s v.pend.launch)
    | some b => b.mask
  else 0

/-- Clause (1) of `ChannelOff` for one slot: a queued note of channel c is dropped (R147). -/
def Voice.dropPend (v : Voice) (c : BitVec 4) : Voice :=
  if v.pend.valid && decide (v.pend.launch.chan = c) then { v with pend := { v.pend with valid := false } } else v

/-- Clause (2) of `ChannelOff` for one slot: an active voice of channel c is released (m = 0, if held) or silenced (m = 1)
(R147). -/
def Voice.offVoice (v : Voice) (c : BitVec 4) (m : Bool) : Voice :=
  if v.act && decide (v.ident.chan = c) then
    if m then v.silence else if v.flags.on then v.releaseNote else v
  else v

/-- `ChannelOff(c, m)` for one slot (R147). -/
def Voice.channelOff (v : Voice) (c : BitVec 4) (m : Bool) : Voice := (v.dropPend c).offVoice c m

/-- `ChannelOff(c, m)` (R147). -/
def State.channelOff (s : State) (c : BitVec 4) (m : Bool) : State :=
  { s with voices := s.voices.map fun v => v.channelOff c m }

/-- `CHREL` for one slot: clear the marks the mask names, and release a voice that was marked and no longer is (R146). -/
def Voice.channelRelease (v : Voice) (c : BitVec 4) (m0 m1 : Bool) : Voice :=
  if v.act && decide (v.ident.chan = c) then
    let sus := v.flags.sus && !m0
    let sost := v.flags.sost && !m1
    let v' := { v with flags := { v.flags with sus := sus, sost := sost } }
    if ((m0 && v.flags.sus) || (m1 && v.flags.sost)) && !sus && !sost then v'.releaseNote else v'
  else v

end Sys2Proof.Machine
end

