-- ==== Sys2Proof/Machine/ChannelCmd.lean ====
section
/-! DEFINITION. The channel commands (41_channel_commands.md): `CCWR` `PBWR` `CPWR` `RPNWR` `NRPNWR` `CHOFF` `CHREL`. All
are of the closed set, and check the channel first. -/

namespace Sys2Proof.Machine

/-- `CCWR chan, ctrl, value` (R140). -/
def execCcwr (chan : BitVec 8) (ctrl : BitVec 16) (value : BitVec 32) (s : State) : Host.Outcome State Fault Refusal :=
  done (channelCommand chan (fun c => checkRange (decide (ctrl.toNat ≤ 127)) fun s =>
    s.updChan c fun ch => { ch with cc := ch.cc.set (ctrl.setWidth 7).toFin (low7 value) }) s)

/-- `PBWR chan, value` (R141). -/
def execPbwr (chan : BitVec 8) (value : BitVec 32) (s : State) : Host.Outcome State Fault Refusal :=
  done (channelCommand chan (fun c s => s.updChan c fun ch => { ch with pb := low14 value }) s)

/-- `CPWR chan, value` (R142). -/
def execCpwr (chan : BitVec 8) (value : BitVec 32) (s : State) : Host.Outcome State Fault Refusal :=
  done (channelCommand chan (fun c s => s.updChan c fun ch => { ch with cp := low7 value }) s)

/-- `RPNWR chan, slot, value` (R143). -/
def execRpnwr (chan : BitVec 8) (slot : BitVec 16) (value : BitVec 32) (s : State) : Host.Outcome State Fault Refusal :=
  done (channelCommand chan (fun c s => checkRange (decide (slot.toNat < s.cfg.nRpn)) (fun s =>
    s.updChan c fun ch => { ch with rpn := ch.rpn.set slot.toNat (low14 value) }) s) s)

/-- `NRPNWR chan, slot, value` (R144). -/
def execNrpnwr (chan : BitVec 8) (slot : BitVec 16) (value : BitVec 32) (s : State) : Host.Outcome State Fault Refusal :=
  done (channelCommand chan (fun c s => checkRange (decide (slot.toNat < s.cfg.nNrpn)) (fun s =>
    s.updChan c fun ch => { ch with nrpn := ch.nrpn.set slot.toNat (low14 value) }) s) s)

/-- `CHOFF chan, mode` (R145). -/
def execChoff (chan : BitVec 8) (mode : BitVec 32) (s : State) : Host.Outcome State Fault Refusal :=
  done (channelCommand chan (fun c s => s.channelOff c (bit0 mode)) s)

/-- `CHREL chan, mask` (R146). -/
def execChrel (chan : BitVec 8) (mask : BitVec 32) (s : State) : Host.Outcome State Fault Refusal :=
  done (channelCommand chan (fun c s =>
    { s with voices := s.voices.map fun v => v.channelRelease c (bit0 mask) (bit1 mask) }) s)

end Sys2Proof.Machine
end

