-- ==== Sys2Proof/Machine/Resampler.lean ====
section
/-! DEFINITION. The resampler bank (46_resampler.md): the loop-mode multiplexer, interpolation, position update, and pitch
to step. -/

namespace Sys2Proof.Machine

/-- `LE` = `LSTART` + `LLEN` (R273). -/
def Desc.loopEnd (d : Desc) : Nat := d.lstart.toNat + d.llen.toNat

/-- What `Next` returns (R274): index, direction, end of stream. -/
structure NextPos where
  idx   : Nat
  dir   : Dir
  ended : Bool
deriving DecidableEq, Repr

/-- One step forward inside the loop: past its end, back by the loop length (R274). -/
def nextLoop (d : Desc) (i : Nat) (dir : Dir) : NextPos :=
  { idx := if d.loopEnd ≤ i + 1 then i + 1 - d.llen.toNat else i + 1, dir := dir, ended := false }

/-- One step of the ping-pong loop: at a boundary the step is spent turning round (R274). -/
def nextPingpong (d : Desc) (i : Nat) : Dir → NextPos
  | .up => if d.loopEnd ≤ i + 1 then ⟨i, .down, false⟩ else ⟨i + 1, .up, false⟩
  | .down => if i ≤ d.lstart.toNat then ⟨i, .up, false⟩ else ⟨i - 1, .down, false⟩

/-- One step with no loop in force: to the end of the stream (R274). -/
def nextLinear (d : Desc) (i : Nat) (dir : Dir) : NextPos :=
  if d.len.toNat ≤ i + 1 then ⟨i, dir, true⟩ else ⟨i + 1, dir, false⟩

/-- `Next(i, dir)` (R274). -/
def nextPos (d : Desc) (loopen : Bool) (i : Nat) (dir : Dir) : NextPos :=
  match loopen, d.lmode with
  | true, .forward => nextLoop d i dir
  | true, .release => nextLoop d i dir
  | true, .pingpong => nextPingpong d i dir
  | true, .off => nextLinear d i dir
  | false, _ => nextLinear d i dir

/-- The neighbour `Interp` reads: the sample `Next` would move to (R275). -/
def Pos.neighbour (p : Pos) (d : Desc) : NextPos := nextPos d p.loopen p.srci.toNat p.dir

/-- Linear interpolation between two samples, `FRAC`/32768 of the way (R275). -/
def lerp (s0 s1 : Int) (frac : Nat) : Int := s0 + asr ((s1 - s0) * (frac : Int)) 15

/-- `Interp`, the value at the current position, with the counter of free reads (R275). -/
def interp (s : State) (stale : List (Nat × BitVec 16)) (d : Desc) (p : Pos) (ctr : Nat) : Int × Nat :=
  if p.ended then (0, ctr)
  else
    let r0 := s.voiceRead stale ctr (d.base.toNat + p.srci.toNat)
    if (p.neighbour d).ended then (lerp r0.1.toInt 0 p.frac.toNat, r0.2)
    else
      let r1 := s.voiceRead stale r0.2 (d.base.toNat + (p.neighbour d).idx)
      (lerp r0.1.toInt r1.1.toInt p.frac.toNat, r1.2)

/-- k whole samples onward, stopping at the end of the stream, where the index stays at the last one reached (R276). -/
def stepWhole (d : Desc) : Nat → Pos → Pos
  | 0, p => p
  | k + 1, p =>
    if (p.neighbour d).ended then { p with ended := true }
    else stepWhole d k { p with srci := BitVec.ofNat 32 (p.neighbour d).idx, dir := (p.neighbour d).dir }

/-- `Advance(step)` (R276). -/
def advance (d : Desc) (p : Pos) (step : Nat) : Pos :=
  if p.ended then p
  else stepWhole d ((p.frac.toNat + step) >>> 15) { p with frac := BitVec.ofNat 15 (p.frac.toNat + step) }

/-- `SRRQ` = (`RATE`·32768) div FS (R277). -/
def srrq (cfg : Config) (d : Desc) : Nat := d.rate.toNat * 32768 / cfg.fs

/-- `StepOf(c)` = min((`Exp2C(c)`·`SRRQ`) >> 15, 2^31 − 1) (R277). -/
def stepOf (cfg : Config) (d : Desc) (c : Int) : Nat := min ((exp2C c * srrq cfg d) >>> 15) 2147483647

end Sys2Proof.Machine
end

