-- ==== Sys2Proof/Machine/VoiceTick.lean ====
section
/-! DEFINITION. What one voice does in a tick: its control logic (R310 to R319) and its audio logic (R320 to R325). -/

namespace Sys2Proof.Machine

/-! ## Control logic -/

/-- Glide: the offset moves toward 0 by the rate and stops there (R310). -/
def glideStep (gofs grate : BitVec 32) : BitVec 32 :=
  if 0 < gofs.toInt then BitVec.ofInt 32 (max 0 (gofs.toInt - (grate.toNat : Int)))
  else if gofs.toInt < 0 then BitVec.ofInt 32 (min 0 (gofs.toInt + (grate.toNat : Int)))
  else gofs

/-- R310. -/
def Voice.glide (v : Voice) : Voice := { v with gofs := glideStep v.gofs v.grate }

/-- R312: both LFOs, with the frequencies just evaluated. -/
def Voice.stepLfos (cfg : Config) (v : Voice) : Voice :=
  { v with
    lfo0 := lfoAdvance cfg v.lfo0 (v.dstVal 12)
    lfo1 := lfoAdvance cfg v.lfo1 (v.dstVal 14) }

/-- R313: both EGs, with the inputs just evaluated. -/
def Voice.stepEgs (v : Voice) : Voice :=
  { v with
    eg0 := egAdvance v.eg0 (v.dstVal 2) (v.dstVal 3) (v.dstVal 4) (v.dstVal 5) (v.dstVal 6)
    eg1 := egAdvance v.eg1 (v.dstVal 7) (v.dstVal 8) (v.dstVal 9) (v.dstVal 10) (v.dstVal 11) }

/-- R314: the shutdown ramp. -/
def Voice.stepShut (cfg : Config) (v : Voice) : Voice :=
  if v.flags.silencing then { v with shut := BitVec.ofNat 16 (v.shut.toNat - cfg.shutStep) } else v

/-- R315: is this the voice's last tick? -/
def Voice.isFinal (v : Voice) : Bool :=
  decide (v.eg0.stage = .done) || (v.flags.silencing && decide (v.shut = 0))

/-- R315. -/
def Voice.markFinal (v : Voice) : Voice := { v with flags := { v.flags with final := v.isFinal } }

/-- The total pitch in Q16.16 cents, clamped (R316). -/
def Voice.pitch (v : Voice) : Int := clamp (v.desc.corr.toInt + v.dstVal 16 + v.gofs.toInt) cMin cMax

/-- The amplitude target (R317). -/
def Voice.amplitude (v : Voice) : Nat :=
  if v.flags.final then 0 else (cbToAmp (min (v.dstVal 17) 0) * v.shut.toNat) >>> 15

/-- `PanL(p)` = min(32768, 2·(32768 − p)) (R318). -/
def panL (p : Nat) : Nat := min one (2 * (one - p))

/-- `PanR(p)` = min(32768, 2·p) (R318). -/
def panR (p : Nat) : Nat := min one (2 * p)

/-- A pan or balance destination as a position: clamp(16384 + asr(x, 2), 0, 32768) (R318). -/
def panPos (x : Int) : Nat := (clamp (16384 + asr x 2) 0 32768).toNat

/-- `GL` from pan and balance positions (R318). -/
def gainL (p b : Nat) : Nat := (panL p * panL b) >>> 15

/-- `GR` from pan and balance positions (R318). -/
def gainR (p b : Nat) : Nat := (panR p * panR b) >>> 15

/-- R316, R317, R318: the audio parameters of this tick; `TOLD` and `AOLD` keep the previous tick's. -/
def Voice.setAudio (cfg : Config) (v : Voice) : Voice :=
  { v with
    audio := { v.audio with
      tnew := BitVec.ofNat 32 (stepOf cfg v.desc v.pitch)
      anew := BitVec.ofNat 16 v.amplitude
      gl := BitVec.ofNat 16 (gainL (panPos (v.dstVal 18)) (panPos (v.dstVal 19)))
      gr := BitVec.ofNat 16 (gainR (panPos (v.dstVal 18)) (panPos (v.dstVal 19)))
      mono := decide (gainL (panPos (v.dstVal 18)) (panPos (v.dstVal 19)) = one) &&
        decide (gainR (panPos (v.dstVal 18)) (panPos (v.dstVal 19)) = one)
      rv := BitVec.ofNat 16 (levelOf (v.dstVal 20))
      ch := BitVec.ofNat 16 (levelOf (v.dstVal 21)) } }

/-- R319: a voice's first tick has no ramp. -/
def Voice.firstTick (v : Voice) : Voice :=
  if v.flags.first then { v with audio := { v.audio with told := v.audio.tnew, aold := v.audio.anew } } else v

/-- `ControlLogic(v)`, R310 to R319 in order. -/
def controlLogic (s : State) (v : Voice) : Voice :=
  (((((evalTick s v.glide).stepLfos s.cfg).stepEgs.stepShut s.cfg).markFinal).setAudio s.cfg).firstTick

/-- Step 3, second half, for one slot: active voices run their control logic (R300). -/
def controlVoice (s : State) (v : Voice) : Voice := if v.act then controlLogic s v else v

/-- The error bits one slot's control logic raises (R311, R222). -/
def controlErr (s : State) (v : Voice) : BitVec 16 := ErrBit.cbbad.maskIf (v.act && evalTickBad s v.glide)

/-! ## Audio logic -/

/-- What one frame of one voice adds to the live buses (R322, R323). -/
structure FrameAdd where
  l  : Int
  r  : Int
  m  : Int
  e1 : Int
  e2 : Int
deriving DecidableEq, Repr

/-- asr(y·g, 15): a sample through a Q15 gain (R321 to R323). -/
def gained (y : Int) (g : Nat) : Int := asr (y * (g : Int)) 15

/-- What a voice's scaled sample y adds to each bus: dry to M or to L and R (R322), sends to E1 and E2 (R323). -/
def routeSample (a : Audio) (y : Int) : FrameAdd where
  l := if a.mono then 0 else gained y a.gl.toNat
  r := if a.mono then 0 else gained y a.gr.toNat
  m := if a.mono then y else 0
  e1 := gained y a.rv.toNat
  e2 := gained y a.ch.toNat

/-- The amplitude of frame j (R321). -/
def Audio.ampAt (a : Audio) (j n : Nat) : Nat := ramp a.aold.toNat a.anew.toNat j n

/-- The step of frame j (R278, R324). -/
def Audio.stepAt (a : Audio) (j n : Nat) : Nat := ramp a.told.toNat a.tnew.toNat j n

/-- What a voice's frames leave: the additions frame by frame, the read position after the last, the counter of free reads. -/
structure Rendered where
  frames : List FrameAdd
  pos    : Pos
  ctr    : Nat
deriving DecidableEq, Repr

/-- Frames j, j + 1, … of a voice, as many as are asked for, strictly in order (R320): sample, scale, route, advance. -/
def renderFrames (s : State) (v : Voice) : Nat → Nat → Pos → Nat → Rendered
  | 0, _, p, ctr => { frames := [], pos := p, ctr := ctr }
  | k + 1, j, p, ctr =>
    let x := interp s v.stale v.desc p ctr
    let rest := renderFrames s v k (j + 1) (advance v.desc p (v.audio.stepAt j s.cfg.chunk)) x.2
    { rest with frames := routeSample v.audio (gained x.1 (v.audio.ampAt j s.cfg.chunk)) :: rest.frames }

/-- The whole chunk of a voice (R320). -/
def renderVoice (s : State) (v : Voice) (ctr : Nat) : Rendered := renderFrames s v s.cfg.chunk 0 v.pos ctr

/-- R325: the targets become the previous ones, the first tick is over, and a voice in its last tick or at its end goes. -/
def Voice.finish (v : Voice) (p : Pos) : Voice :=
  let v' := { v with
    pos := p
    audio := { v.audio with told := v.audio.tnew, aold := v.audio.anew }
    flags := { v.flags with first := false } }
  if v.flags.final || p.ended then v'.deactivate else v'

/-- The event bit that R325 raises (R192, R357). -/
def Voice.finishErr (v : Voice) (p : Pos) : BitVec 16 := ErrBit.vdone.maskIf (v.flags.final || p.ended)

end Sys2Proof.Machine
end

