-- ==== Sys2Proof/Machine/Mixer.lean ====
section
/-! DEFINITION. The control tick (47_mixer_tick.md, R300): its eight steps in order, the effect unit's port (R330 to R332),
the output (R333, R334) and silence detection (R335). -/

namespace Sys2Proof.Machine

/-! ## Steps 1 and 2 -/

/-- Step 1: each live bus takes its delay copy, and the delay copies are cleared (R301). -/
def delayIn (s : State) : State :=
  { s with buses := {
      l := s.buses.dl
      r := s.buses.dr
      m := s.buses.dm
      e1 := s.buses.de1
      e2 := s.buses.de2
      dl := zeroBus s.cfg.chunk
      dr := zeroBus s.cfg.chunk
      dm := zeroBus s.cfg.chunk
      de1 := zeroBus s.cfg.chunk
      de2 := zeroBus s.cfg.chunk } }

/-- min(`ASCNT` + 1, 65535) (R302). -/
def countUp (c : BitVec 16) : BitVec 16 := BitVec.ofNat 16 (min (c.toNat + 1) 65535)

/-- `ChannelOff(c, 1)` for c = 0 to 15 (R302). -/
def allSoundOff (s : State) : State :=
  (List.range 16).foldl (fun s c => s.channelOff (BitVec.ofNat 4 c) true) s

/-- Does the watchdog fire in the tick that now begins (R302)? -/
def State.watchdogFires (s : State) : Bool :=
  s.asen && decide (s.cfg.asenseLimit < (countUp s.ascnt).toNat)

/-- Step 2: the active-sensing watchdog (R302). -/
def watchdog (s : State) : State :=
  if s.watchdogFires then ({ allSoundOff { s with ascnt := countUp s.ascnt } with asen := false }).raise .wdog
  else { s with ascnt := countUp s.ascnt }

/-! ## Step 3 -/

/-- The bits that an operation raises over all slots. -/
def orAll (bits : List (BitVec 16)) : BitVec 16 := bits.foldl (· ||| ·) 0

/-- Step 3, first half: `Promote` for every FREE_QUEUED slot (R303). No slot's promotion reads what another's writes. -/
def promoteAll (s : State) : State :=
  { s with voices := s.voices.map (promoteVoice s), err := s.err ||| orAll (s.voices.map (promoteErr s)) }

/-- Step 3, second half: `ControlLogic` for every active slot (R300). No slot's control logic reads what another's writes. -/
def controlAll (s : State) : State :=
  { s with voices := s.voices.map (controlVoice s), err := s.err ||| orAll (s.voices.map (controlErr s)) }

/-! ## Step 4 -/

/-- The squared volume g (R328). -/
def squaredGain (mvol : BitVec 16) : Nat := (mvol.toNat * mvol.toNat) >>> 15

/-- `GLM` (R328). -/
def State.masterL (s : State) : Nat := (squaredGain s.mvol * panL s.mbal.toNat) >>> 15

/-- `GRM` (R328). -/
def State.masterR (s : State) : Nat := (squaredGain s.mvol * panR s.mbal.toNat) >>> 15

/-- `Fx.control(st)` (R330, R331). -/
def fxControlOf : FxUnit → FxState → FxState
  | .null, st => st
  | .echo, st => st + 1
  | .external u, st => Config.fxControl u st

/-- Step 4: the effect unit's control logic (R327). -/
def fxControl (s : State) : State := { s with fxst := fxControlOf s.cfg.fx s.fxst }

/-! ## Step 5 -/

/-- Add one value per frame to a bus. -/
def addToBus (bus : List (BitVec 32)) (xs : List Int) : List (BitVec 32) :=
  List.zipWith (fun b x => b + BitVec.ofInt 32 x) bus xs

/-- Add a voice's frames to the live buses (R322, R323). -/
def Buses.addFrames (b : Buses) (fs : List FrameAdd) : Buses :=
  { b with
    l := addToBus b.l (fs.map FrameAdd.l)
    r := addToBus b.r (fs.map FrameAdd.r)
    m := addToBus b.m (fs.map FrameAdd.m)
    e1 := addToBus b.e1 (fs.map FrameAdd.e1)
    e2 := addToBus b.e2 (fs.map FrameAdd.e2) }

/-- What step 5 threads from voice to voice. -/
structure AudioPass where
  voices : List Voice
  buses  : Buses
  err    : BitVec 16
  ctr    : Nat
deriving DecidableEq, Repr

/-- Step 5 over a list of slots in increasing order: `AudioLogic(v)` for each active one (R300, R320). -/
def audioVoices (s : State) : List Voice → Buses → BitVec 16 → Nat → AudioPass
  | [], b, e, ctr => { voices := [], buses := b, err := e, ctr := ctr }
  | v :: vs, b, e, ctr =>
    if v.act then
      let r := renderVoice s v ctr
      let rest := audioVoices s vs (b.addFrames r.frames) (e ||| v.finishErr r.pos) r.ctr
      { rest with voices := v.finish r.pos :: rest.voices }
    else
      let rest := audioVoices s vs b e ctr
      { rest with voices := v :: rest.voices }

/-- Step 5 (R300, R320). -/
def audioAll (s : State) : State :=
  let p := audioVoices s s.voices s.buses s.err s.freeCtr
  { s with voices := p.voices, buses := p.buses, err := p.err, freeCtr := p.ctr }

/-- The mono fold (R326). -/
def monoFold (s : State) : State :=
  { s with buses := { s.buses with
      l := List.zipWith (· + ·) s.buses.l s.buses.m
      r := List.zipWith (· + ·) s.buses.r s.buses.m
      m := zeroBus s.cfg.chunk } }

/-! ## Step 6 -/

/-- A list as an array of n frames: cut, or filled with zeros. -/
def fitBus (n : Nat) (xs : List (BitVec 32)) : List (BitVec 32) := (List.range n).map fun j => xs.getD j 0

/-- R330's bound on a delay element: |x| ≤ 2^28. -/
def clampDelay (x : BitVec 32) : BitVec 32 := BitVec.ofInt 32 (clamp x.toInt (-268435456) 268435456)

/-- Hold an effect unit's answer to R330's contract; an answer that meets the contract is unchanged. -/
def fxContract (n : Nat) (o : FxOut) : FxOut where
  st := o.st
  l := fitBus n o.l
  r := fitBus n o.r
  dl := (fitBus n o.dl).map clampDelay
  dr := (fitBus n o.dr).map clampDelay
  dm := (fitBus n o.dm).map clampDelay
  de1 := (fitBus n o.de1).map clampDelay
  de2 := (fitBus n o.de2).map clampDelay

/-- `Fx.audio(st, L, R, E1, E2)` of the connected unit, before the contract (R330, R331). -/
def fxAudioRaw (cfg : Config) (st : FxState) (l r e1 e2 : List (BitVec 32)) : FxOut :=
  match cfg.fx with
  | .null => { st := st, l := l, r := r, dl := [], dr := [], dm := [], de1 := [], de2 := [] }
  | .echo => { st := st, l := l, r := r, dl := e1, dr := e2, dm := [], de1 := [], de2 := [] }
  | .external u => Config.fxAudio u cfg.chunk st l r e1 e2

/-- `Fx.audio(st, L, R, E1, E2)` (R330). -/
def fxAudioOf (cfg : Config) (st : FxState) (l r e1 e2 : List (BitVec 32)) : FxOut :=
  fxContract cfg.chunk (fxAudioRaw cfg st l r e1 e2)

/-- Step 6 (R332): E1, E2 and M keep their values. -/
def fxAudio (s : State) : State :=
  let o := fxAudioOf s.cfg s.fxst s.buses.l s.buses.r s.buses.e1 s.buses.e2
  { s with
    fxst := o.st
    buses := { s.buses with l := o.l, r := o.r, dl := o.dl, dr := o.dr, dm := o.dm, de1 := o.de1, de2 := o.de2 } }

/-! ## Steps 7 and 8 -/

/-- One output sample: sat16(asr(x · Ramp(old, new, j, n), 15)) (R333). -/
def outSample (x : BitVec 32) (old new j n : Nat) : BitVec 16 :=
  BitVec.ofInt 16 (sat16 (asr (x.toInt * (ramp old new j n : Int)) 15))

/-- The output samples of one side (R333). -/
def outSide (bus : List (BitVec 32)) (old new n : Nat) : List (BitVec 16) :=
  (List.range n).map fun j => outSample (bus.getD j 0) old new j n

/-- The four bytes of a frame: left low, left high, right low, right high (R334, R80). -/
def frameBytes (l r : BitVec 16) : List Byte :=
  [l.extractLsb' 0 8, l.extractLsb' 8 8, r.extractLsb' 0 8, r.extractLsb' 8 8]

/-- The bytes of a chunk (R334). -/
def packFrames (ls rs : List (BitVec 16)) : List Byte := (List.zipWith frameBytes ls rs).flatten

/-- `silent`: every output sample of the tick is 0 (R335). -/
def allSilent (ls rs : List (BitVec 16)) : Bool := ls.all (fun x => decide (x = 0)) && rs.all (fun x => decide (x = 0))

/-- Step 7 (R333, R334). -/
def emit (s : State) (ls rs : List (BitVec 16)) : State :=
  { s with
    outbuf := packFrames ls rs
    gprevl := BitVec.ofNat 16 s.masterL
    gprevr := BitVec.ofNat 16 s.masterR }

/-- `SILCNT` after a tick that was silent and without a command (R335). -/
def silUp (c : BitVec 3) : BitVec 3 := BitVec.ofNat 3 (min (c.toNat + 1) Config.silTicks)

/-- Step 8 (R335). -/
def silenceDetect (s : State) (silent : Bool) : State :=
  if silent && !s.cmdseen then
    if (silUp s.silcnt).toNat = Config.silTicks then ({ s with silcnt := silUp s.silcnt, idle := true }).raise .idle
    else { s with silcnt := silUp s.silcnt }
  else { s with silcnt := 0 }

/-- End of tick (R337). -/
def endTick (s : State) : State := { s with cmdseen := false, tickcnt := s.tickcnt + 1, outrd := 0 }

/-! ## The tick -/

/-- Steps 1 to 6 (R300). -/
def tickToBuses (s : State) : State :=
  fxAudio (monoFold (audioAll (fxControl (controlAll (promoteAll (watchdog (delayIn s)))))))

/-- Steps 7 and 8 and the end of the tick, on the processed buses (R300). -/
def tickOutput (s : State) : State :=
  let ls := outSide s.buses.l s.gprevl.toNat s.masterL s.cfg.chunk
  let rs := outSide s.buses.r s.gprevr.toNat s.masterR s.cfg.chunk
  endTick (silenceDetect (emit s ls rs) (allSilent ls rs))

/-- `Tick` (R300). -/
def tick (s : State) : State := tickOutput (tickToBuses s)

/-! ## The SINK transitions (R81, R82, R83) -/

/-- Synthetic silence: one chunk of zero bytes, and nothing else changes (R81, R83). -/
def syntheticSilence (s : State) : State := { s with outbuf := List.replicate s.cfg.outBytes 0, outrd := 0 }

/-- Is `Refill` enabled: open, and the buffer empty (R81)? -/
def State.refillEnabled (s : State) : Bool := s.run && decide (s.outrd = s.cfg.outBytes)

/-- `Refill` (R81); while it is not enabled SINK waits. -/
def refill (s : State) : State :=
  if s.refillEnabled then if s.idle then syntheticSilence s else tick s else s

/-- Is `PullByte` enabled: open, and the buffer not empty (R82)? -/
def State.pullEnabled (s : State) : Bool := s.run && decide (s.outrd < s.cfg.outBytes)

/-- `PullByte`: SINK receives `OUTBUF[OUTRD]` (R82); while it is not enabled SINK waits. -/
def pullByte (s : State) : State :=
  if s.pullEnabled then
    { s with sinkGot := s.sinkGot ++ [s.outbuf.getD s.outrd 0], outrd := s.outrd + 1 }
  else s

/-! ## Reset and the dynamic state -/

/-- The `Reset` transition: every element of state at R51's value, the memories unspecified anew (R380). What the agents
outside hold, the schedule and the bytes received, is not the machine's. -/
def resetMachine (s : State) : State :=
  { State.init s.cfg with
    sched := s.sched
    sinkGot := s.sinkGot
    epoch := s.epoch + 1
    freeCtr := s.freeCtr }

/-- What `CLOSE` restores (R122): R51's values, but WAVE, WT, CB, `WPTR`, `LR`, `ERR`, `IEN` and `RSP` kept. -/
def closeMachine (s : State) : State :=
  { State.init s.cfg with
    wave := s.wave
    wt := s.wt
    cb := s.cb
    wptr := s.wptr
    lr := s.lr
    err := s.err
    ien := s.ien
    rsp := s.rsp
    sched := s.sched
    sinkGot := s.sinkGot
    epoch := s.epoch
    freeCtr := s.freeCtr }

end Sys2Proof.Machine
end

