-- ==== Sys2Proof/Machine/System.lean ====
section
/-! DEFINITION. The system commands (40_system_commands.md): `NOP` `OPEN` `CLOSE` `MSET` `ASENSE` `ERRCLR` `IENSET` `RDG`. -/

namespace Sys2Proof.Machine

/-- `NOP`: no state changes, no activity marking (R120). -/
def execNop (s : State) : Host.Outcome State Fault Refusal := done s

/-- `OPEN` (R121): a closed machine opens with an empty buffer; nothing else changes. -/
def execOpen (s : State) : Host.Outcome State Fault Refusal :=
  done (activityCommand s fun s =>
    if s.run then s else { s with run := true, idle := false, silcnt := 0, outrd := s.cfg.outBytes })

/-- `CLOSE` (R122): an open machine drops its dynamic state. -/
def execClose (s : State) : Host.Outcome State Fault Refusal :=
  done (activityCommand s fun s => if s.run then closeMachine s else s)

/-- Write master register `reg`, 0 to 3 (R123). -/
def State.setMaster (s : State) (reg : Nat) (x : BitVec 16) : State :=
  match reg with
  | 0 => { s with mvol := x }
  | 1 => { s with mbal := x }
  | 2 => { s with mfine := x }
  | _ => { s with mcoarse := x }

/-- `MSET reg, value` (R123): the value saturates at 32768. -/
def execMset (reg : BitVec 16) (value : BitVec 32) (s : State) : Host.Outcome State Fault Refusal :=
  done (activityCommand s (checkRange (decide (reg.toNat ≤ 3)) fun s => s.setMaster reg.toNat (saturated value)))

/-- `ASENSE value` (R124). -/
def execAsense (value : BitVec 32) (s : State) : Host.Outcome State Fault Refusal :=
  done (activityCommand s fun s => { s with asen := bit0 value })

/-- `ERRCLR mask` (R125). -/
def execErrclr (mask : BitVec 32) (s : State) : Host.Outcome State Fault Refusal :=
  done (activityCommand s fun s => s.clearErr mask)

/-- `IENSET mask` (R126). -/
def execIenset (mask : BitVec 32) (s : State) : Host.Outcome State Fault Refusal :=
  done (activityCommand s fun s => { s with ien := low16 mask &&& errMask })

/-- The word `RDG` answers for register 0 to 12 (R127); a pointer of 2^32 answers its low 32 bits (R9, R31; DEDUCED, log
entry 7). -/
def State.globalWord (s : State) (reg : Nat) : Word :=
  match reg with
  | 0 => 0x4D440007
  | 1 => s.status
  | 2 => s.err.setWidth 32
  | 3 => s.ien.setWidth 32
  | 4 => s.tickcnt
  | 5 => s.mvol.setWidth 32
  | 6 => s.mbal.setWidth 32
  | 7 => s.mfine.setWidth 32
  | 8 => s.mcoarse.setWidth 32
  | 9 => BitVec.ofNat 32 s.busyCount
  | 10 => BitVec.ofNat 32 s.cfg.nv
  | 11 => s.wptr.setWidth 32
  | _ => s.ascnt.setWidth 32

/-- `RDG reg` (R127): no activity marking; a register number above 12 raises `RANGE` and responds 0. -/
def execRdg (reg : BitVec 16) (s : State) : Host.Outcome State Fault Refusal :=
  done (if reg.toNat ≤ 12 then s.respond (s.globalWord reg.toNat) else (s.raise .range).respond 0)

end Sys2Proof.Machine
end

