-- ==== Sys2Proof/Machine/TableCmd.lean ====
section
/-! DEFINITION. The table commands (42_table_commands.md): `WPTR` `WWR` `WTWR` `CBWR`. All work open or closed. -/

namespace Sys2Proof.Machine

/-- `WPTR addr` (R160). -/
def execWptr (addr : BitVec 32) (s : State) : Host.Outcome State Fault Refusal :=
  done (activityCommand s fun s =>
    checkRange (decide (addr.toNat < s.cfg.waveSize)) (fun s => { s with wptr := addr.setWidth 33 }) s)

/-- Write the sample at `WPTR` and advance it, at most to WAVE_SIZE; a live view that covers the element is from now on a hazard
(R161, R386). -/
def State.storeSample (s : State) (x : BitVec 16) : State :=
  { s.waveWrite s.wptr.toNat x with
    wptr := s.wptr + 1
    voices := s.voices.map fun v => v.noteRewrite s.wptr.toNat (s.waveRead s.wptr.toNat) }

/-- `WWR sample` (R161). -/
def execWwr (sample : BitVec 32) (s : State) : Host.Outcome State Fault Refusal :=
  done (activityCommand s fun s =>
    checkRange (decide (s.wptr.toNat < s.cfg.waveSize)) (fun s => s.storeSample (low16 sample)) s)

/-- The value a descriptor field stores: field 4 (`LMODE`) two bits, the others all 32 (R162, R111). -/
def descFieldValue (field : Nat) (value : Word) : Word := if field = 4 then (low2 value).setWidth 32 else value

/-- `WTWR field, index, value` (R162). -/
def execWtwr (field : BitVec 8) (index : BitVec 16) (value : BitVec 32) (s : State) : Host.Outcome State Fault Refusal :=
  done (activityCommand s fun s =>
    checkRange (decide (field.toNat ≤ 6) && decide (index.toNat < s.cfg.nwt)) (fun s =>
      s.wtWrite index.toNat field.toNat (descFieldValue field.toNat value)) s)

/-- `CBWR field, index, value` (R163). -/
def execCbwr (field : BitVec 8) (index : BitVec 16) (value : BitVec 32) (s : State) : Host.Outcome State Fault Refusal :=
  done (activityCommand s fun s =>
    checkRange (decide (field.toNat ≤ 2) && decide (index.toNat < s.cfg.ncb)) (fun s =>
      s.cbWrite index.toNat field.toNat value) s)

end Sys2Proof.Machine
end

