-- ==== Sys2Proof/Machine/VoiceCmd.lean ====
section
/-! DEFINITION. The voice commands (43_voice_commands.md): `LRWR` `VSTART` `VOFF` `VSIL` `VCANCEL` `VGLIDE` `PPWR` `RDV`. -/

namespace Sys2Proof.Machine

/-- Launch-record field `field`, 0 to 10, from `D` truncated to its width (R33, R181). -/
def LaunchRec.setField (r : LaunchRec) (field : Nat) (d : Word) : LaunchRec :=
  match field with
  | 0 => { r with chan := low4 d }
  | 1 => { r with note := low7 d }
  | 2 => { r with vel := low7 d }
  | 3 => { r with vid := d }
  | 4 => { r with wt := low16 d }
  | 5 => { r with cbbase := low16 d }
  | 6 => { r with cbcnt := low16 d }
  | 7 => { r with excl := d }
  | 8 => { r with reltrig := bit0 d }
  | 9 => { r with gofs := d }
  | _ => { r with grate := d }

/-- `LRWR field, value` (R181): works open or closed. -/
def execLrwr (field : BitVec 8) (value : BitVec 32) (s : State) : Host.Outcome State Fault Refusal :=
  done (activityCommand s (checkRange (decide (field.toNat ≤ 10)) fun s =>
    { s with lr := s.lr.setField field.toNat value }))

/-- A valid launch record started on slot v: `Init` on a free slot, the deferred takeover on an active one (R182, R186). -/
def launchOn (v : Nat) (s : State) : State :=
  if (s.voice v).act then s.updVoice v fun x => x.takeover s.lr
  else (s.updVoice v fun _ => initVoice s s.lr).raiseAll (ErrBit.cbbad.maskIf (initBad s s.lr))

/-- The checks of `VSTART` after the slot number: `VBUSY`, then `Validate` (R182). -/
def startOn (v : Nat) (s : State) : State :=
  if (s.voice v).pend.valid then s.raise .vbusy
  else
    match validate s s.lr with
    | some b => s.raise b
    | none => launchOn v s

/-- `VSTART slot` (R182). -/
def execVstart (slot : BitVec 8) (s : State) : Host.Outcome State Fault Refusal := done (slotCommand slot startOn s)

/-- What `VOFF` does to a voice, by mode: release, mark sustained, mark sostenuto; nothing to an inactive slot (R188). -/
def Voice.noteOff (v : Voice) (mode : Nat) : Voice :=
  if v.act then
    match mode with
    | 0 => v.releaseNote
    | 1 => { v with flags := { v.flags with sus := true } }
    | _ => { v with flags := { v.flags with sost := true } }
  else v

/-- `VOFF slot, mode` (R188): mode 3 raises `RANGE`. -/
def execVoff (slot : BitVec 8) (mode : BitVec 32) (s : State) : Host.Outcome State Fault Refusal :=
  done (slotCommand slot (fun v => checkRange (decide ((low2 mode).toNat ≠ 3)) fun s =>
    s.updVoice v fun x => x.noteOff (low2 mode).toNat) s)

/-- `VSIL slot` (R189). -/
def execVsil (slot : BitVec 8) (s : State) : Host.Outcome State Fault Refusal :=
  done (slotCommand slot (fun v s => s.updVoice v fun x => if x.act then x.silence else x) s)

/-- `VCANCEL slot` (R193). -/
def execVcancel (slot : BitVec 8) (s : State) : Host.Outcome State Fault Refusal :=
  done (slotCommand slot (fun v s => s.updVoice v fun x => { x with pend := .none }) s)

/-- What `VGLIDE` does to an active voice (R194). -/
def Voice.glideTo (v : Voice) (r : LaunchRec) : Voice :=
  if v.act then { v with ident := { v.ident with note := r.note }, gofs := r.gofs, grate := r.grate } else v

/-- `VGLIDE slot` (R194). -/
def execVglide (slot : BitVec 8) (s : State) : Host.Outcome State Fault Refusal :=
  done (slotCommand slot (fun v s => s.updVoice v fun x => x.glideTo s.lr) s)

/-- `PPWR slot, value` (R195). -/
def execPpwr (slot : BitVec 8) (value : BitVec 32) (s : State) : Host.Outcome State Fault Refusal :=
  done (slotCommand slot (fun v s => s.updVoice v fun x => if x.act then { x with pp := low7 value } else x) s)

/-- A destination as `RDV` shows it: clamped to 32 bits signed (R199). -/
def dstWord (x : Int) : Word := BitVec.ofInt 32 (clamp x (-2147483648) 2147483647)

/-- Destination k by number; there are 24 (R40). -/
def Voice.dstNat (v : Voice) (k : Nat) : Int := (v.dst.toList.getD k 0).toInt

/-- The field numbers `RDV` knows: 0 to 9 and 0x40 to 0x57 (R199). -/
def rdvFieldOk (field : Nat) : Bool := decide (field ≤ 9) || (decide (0x40 ≤ field) && decide (field ≤ 0x57))

/-- The word `RDV` answers for a field it knows (R199). -/
def Voice.fieldWord (v : Voice) (field : Nat) : Word :=
  match field with
  | 0 => v.flagsWord
  | 1 => v.ident.vid
  | 2 => v.ident.excl
  | 3 => v.ident.cbbase ++ v.ident.wtidx
  | 4 => v.eg0.word
  | 5 => v.eg1.word
  | 6 => v.lfo0.word
  | 7 => v.lfo1.word
  | 8 => v.shut ++ v.audio.anew
  | 9 => v.audio.tnew
  | f => dstWord (v.dstNat (f - 0x40))

/-- `RDV slot, field` (R199): no activity marking; a bad slot or field raises `RANGE` and responds 0. -/
def execRdv (slot : BitVec 8) (field : BitVec 16) (s : State) : Host.Outcome State Fault Refusal :=
  done (if decide (slot.toNat < s.cfg.nv) && rdvFieldOk field.toNat then
      s.respond ((s.voice slot.toNat).fieldWord field.toNat)
    else (s.raise .range).respond 0)

end Sys2Proof.Machine
end

