-- ==== Sys2Proof/Machine/Dispatch.lean ====
section
/-! DEFINITION. The meaning of every command, one arm per constructor. -/

namespace Sys2Proof.Machine

def exec (i : Instr) (s : State) : Host.Outcome State Fault Refusal :=
  match i with
  | .nop => Sys2Proof.Machine.execNop s
  | .open_ => Sys2Proof.Machine.execOpen s
  | .close => Sys2Proof.Machine.execClose s
  | .mset reg value => Sys2Proof.Machine.execMset reg value s
  | .asense value => Sys2Proof.Machine.execAsense value s
  | .errclr mask => Sys2Proof.Machine.execErrclr mask s
  | .ienset mask => Sys2Proof.Machine.execIenset mask s
  | .rdg reg => Sys2Proof.Machine.execRdg reg s
  | .ccwr chan ctrl value => Sys2Proof.Machine.execCcwr chan ctrl value s
  | .pbwr chan value => Sys2Proof.Machine.execPbwr chan value s
  | .cpwr chan value => Sys2Proof.Machine.execCpwr chan value s
  | .rpnwr chan slot value => Sys2Proof.Machine.execRpnwr chan slot value s
  | .nrpnwr chan slot value => Sys2Proof.Machine.execNrpnwr chan slot value s
  | .choff chan mode => Sys2Proof.Machine.execChoff chan mode s
  | .chrel chan mask => Sys2Proof.Machine.execChrel chan mask s
  | .wptr addr => Sys2Proof.Machine.execWptr addr s
  | .wwr sample => Sys2Proof.Machine.execWwr sample s
  | .wtwr field index value => Sys2Proof.Machine.execWtwr field index value s
  | .cbwr field index value => Sys2Proof.Machine.execCbwr field index value s
  | .lrwr field value => Sys2Proof.Machine.execLrwr field value s
  | .vstart slot => Sys2Proof.Machine.execVstart slot s
  | .voff slot mode => Sys2Proof.Machine.execVoff slot mode s
  | .vsil slot => Sys2Proof.Machine.execVsil slot s
  | .vcancel slot => Sys2Proof.Machine.execVcancel slot s
  | .vglide slot => Sys2Proof.Machine.execVglide slot s
  | .ppwr slot value => Sys2Proof.Machine.execPpwr slot value s
  | .rdv slot field => Sys2Proof.Machine.execRdv slot field s

end Sys2Proof.Machine
end

