-- ==== Sys2Proof/Machine/Step.lean ====
section
/-! DEFINITION. One step of the machine: the next scheduled transition (R5, R86). With nothing scheduled no agent acts, and
the machine waits unchanged. -/

namespace Sys2Proof.Machine

/-- One atomic transition (R5): `Cmd(w)` (R103), `Refill` (R81), `PullByte` (R82) or `Reset` (R380). -/
def step (s : State) : Host.Outcome State Fault Refusal :=
  match takeEvent s with
  | none => .next s
  | some (.cmd w, s') =>
    match decode w with
    | .ok i => exec i s'
    | .error _ => .next (undefinedOpcode s')
  | some (.refill, s') => .next (refill s')
  | some (.pullByte, s') => .next (pullByte s')
  | some (.reset, s') => .next (resetMachine s')

/-- The state with that command word the next one HOST delivers: the VEA fetches no program (R21), so this stands for HOST
putting the word on the command port (log entry 2). -/
def State.withFetchWord (s : State) (nbits w : Nat) : State := s.schedule (.cmd (tableWord nbits w))

end Sys2Proof.Machine
end

