-- ==== Sys2Proof/Safety.lean ====
section
/-! DEFINITION. What a safe run of the VEA is, in the terms the statements use: the invariants of the state (R385: no
command sequence can "leave a register outside its stated range"), the named parts of a command's outcome (R103, R104,
R352), the four states of a slot (R37, R180), and the exact sums of the datapath (R210). -/

namespace Sys2Proof.Safety

open Sys2Proof.Machine

/-! ## Outcomes of commands -/

/-- The state after activity marking and nothing else (R104). -/
def marked (s : State) : State := { s with cmdseen := true, ascnt := 0, idle := false }

/-- The state after a command that its own check ended: activity marking and one bit of `ERR`, numbered as R350 numbers
them (R103 stage 4). -/
def refused (bit : Nat) (s : State) : State := { marked s with err := s.err ||| BitVec.twoPow 16 bit }

/-- The closed set of R105. -/
def inClosedSet : Instr → Bool
  | .ccwr .. => true
  | .pbwr .. => true
  | .cpwr .. => true
  | .rpnwr .. => true
  | .nrpnwr .. => true
  | .choff .. => true
  | .chrel .. => true
  | .vstart .. => true
  | .voff .. => true
  | .vsil .. => true
  | .vcancel .. => true
  | .vglide .. => true
  | .ppwr .. => true
  | .nop => false
  | .open_ => false
  | .close => false
  | .mset .. => false
  | .asense .. => false
  | .errclr .. => false
  | .ienset .. => false
  | .rdg .. => false
  | .wptr .. => false
  | .wwr .. => false
  | .wtwr .. => false
  | .cbwr .. => false
  | .lrwr .. => false
  | .rdv .. => false

/-- The two reads, which answer on the response port (R85). -/
def isRead : Instr → Bool
  | .rdg .. => true
  | .rdv .. => true
  | _ => false

/-- The complete list of range checks of R352: an operand of the command is outside what it addresses. -/
def outOfRange (s : State) : Instr → Prop
  | .mset reg _ => 3 < reg.toNat
  | .rdg reg => 12 < reg.toNat
  | .ccwr chan ctrl _ => 15 < chan.toNat ∨ 127 < ctrl.toNat
  | .pbwr chan _ => 15 < chan.toNat
  | .cpwr chan _ => 15 < chan.toNat
  | .rpnwr chan slot _ => 15 < chan.toNat ∨ s.cfg.nRpn ≤ slot.toNat
  | .nrpnwr chan slot _ => 15 < chan.toNat ∨ s.cfg.nNrpn ≤ slot.toNat
  | .choff chan _ => 15 < chan.toNat
  | .chrel chan _ => 15 < chan.toNat
  | .wptr addr => s.cfg.waveSize ≤ addr.toNat
  | .wwr _ => s.cfg.waveSize ≤ s.wptr.toNat
  | .wtwr field index _ => 6 < field.toNat ∨ s.cfg.nwt ≤ index.toNat
  | .cbwr field index _ => 2 < field.toNat ∨ s.cfg.ncb ≤ index.toNat
  | .lrwr field _ => 10 < field.toNat
  | .vstart slot => s.cfg.nv ≤ slot.toNat
  | .voff slot mode => s.cfg.nv ≤ slot.toNat ∨ mode.toNat % 4 = 3
  | .vsil slot => s.cfg.nv ≤ slot.toNat
  | .vcancel slot => s.cfg.nv ≤ slot.toNat
  | .vglide slot => s.cfg.nv ≤ slot.toNat
  | .ppwr slot _ => s.cfg.nv ≤ slot.toNat
  | .rdv slot field =>
    s.cfg.nv ≤ slot.toNat ∨ (9 < field.toNat ∧ field.toNat < 0x40) ∨ 0x57 < field.toNat
  | .nop => False
  | .open_ => False
  | .close => False
  | .asense _ => False
  | .errclr _ => False
  | .ienset _ => False

/-- The fields of a command word that the command with opcode `op` reads, `A`, `B`, `D` in turn (R101's column "fields"). -/
def fieldsRead (op : Nat) : Bool × Bool × Bool :=
  match op with
  | 0x03 => (false, true, true)
  | 0x04 => (false, false, true)
  | 0x05 => (false, false, true)
  | 0x06 => (false, false, true)
  | 0x07 => (false, true, false)
  | 0x10 => (true, true, true)
  | 0x11 => (true, false, true)
  | 0x12 => (true, false, true)
  | 0x13 => (true, true, true)
  | 0x14 => (true, true, true)
  | 0x15 => (true, false, true)
  | 0x16 => (true, false, true)
  | 0x20 => (false, false, true)
  | 0x21 => (false, false, true)
  | 0x22 => (true, true, true)
  | 0x23 => (true, true, true)
  | 0x30 => (true, false, true)
  | 0x31 => (true, false, false)
  | 0x32 => (true, false, true)
  | 0x33 => (true, false, false)
  | 0x34 => (true, false, false)
  | 0x35 => (true, false, false)
  | 0x36 => (true, false, true)
  | 0x37 => (true, true, false)
  | _ => (false, false, false)

/-- The opcodes that R115 calls undefined. -/
def undefinedOp (op : Nat) : Prop :=
  (0x08 ≤ op ∧ op ≤ 0x0F) ∨ (0x17 ≤ op ∧ op ≤ 0x1F) ∨ (0x24 ≤ op ∧ op ≤ 0x2F) ∨ (0x38 ≤ op ∧ op ≤ 0xFF)

/-- The command that HOST delivers in the next transition, if it delivers a defined one. -/
def nextCommand (s : State) : Option Instr :=
  match s.sched.head? with
  | some (.cmd w) => (decode w).toOption
  | _ => none

/-- `t` is `s` after an accepted command that touched channel file `c` only: activity marking, and no other channel. -/
def OnlyChannel (s t : State) (c : BitVec 4) : Prop :=
  { t with chans := s.chans } = marked s ∧ ∀ d, d ≠ c → t.chan d = s.chan d

/-- `t` is `s` after an accepted command that touched slot `v` only: activity marking, and no other slot. -/
def OnlySlot (s t : State) (v : Nat) : Prop :=
  { t with voices := s.voices } = marked s ∧ t.voices.length = s.voices.length ∧ ∀ w, w ≠ v → t.voice w = s.voice w

/-! ## The four states of a slot (R37) and what commands do to a voice -/

/-- The slot states of R37. -/
inductive SlotState where
  | free
  | active
  | releasingPending
  | freeQueued
deriving DecidableEq, Repr

/-- The state of a slot, from (`ACT`, `PEND.VALID`) (R37). -/
def slotState (v : Voice) : SlotState :=
  match v.act, v.pend.valid with
  | false, false => .free
  | true, false => .active
  | true, true => .releasingPending
  | false, true => .freeQueued

/-- The number of an envelope stage (R240). -/
def stageNumber : EgStage → Nat
  | .idle => 0
  | .attack => 1
  | .decay => 2
  | .sustain => 3
  | .release => 4
  | .done => 5

/-- A released voice, as R190 words it. -/
def released (v : Voice) : Voice :=
  { v with
    flags := { v.flags with on := false, sus := false, sost := false }
    pos := { v.pos with loopen := if v.desc.lmode = .release then false else v.pos.loopen } }

/-- A silenced voice, as R191 words it. -/
def silenced (v : Voice) : Voice := { released v with flags := { (released v).flags with silencing := true } }

/-- A descriptor that `Validate` accepts in a WAVE memory of that size (R184, R271). -/
abbrev DescPlayable (waveSize : Nat) (d : Desc) : Prop :=
  1 ≤ d.len.toNat ∧ d.base.toNat + d.len.toNat ≤ waveSize ∧ 1 ≤ d.rate.toNat ∧
  (d.lmode ≠ .off → 1 ≤ d.llen.toNat ∧ d.lstart.toNat + d.llen.toNat ≤ d.len.toNat)

/-- The wavetable half of `Validate` (R184): it fails with `WTBAD` unless this holds. -/
abbrev WavetableOk (s : State) (r : LaunchRec) : Prop :=
  r.wt.toNat < s.cfg.nwt ∧ DescPlayable s.cfg.waveSize (s.descAt r.wt.toNat)

/-- The block-range half of `Validate` (R184): it fails with `CBBAD` unless this holds. -/
abbrev BlockRangeOk (s : State) (r : LaunchRec) : Prop := r.cbbase.toNat + r.cbcnt.toNat ≤ s.cfg.ncb

/-! ## The datapath -/

/-- A selector that R107 calls bad: a reserved category, or an index outside its legal range. -/
def badSelector (cfg : Config) (sel : BitVec 16) : Prop :=
  let cat := sel.toNat / 4096
  let idx := sel.toNat % 4096
  (cat = 1 ∧ 2 < idx) ∨ (cat = 2 ∧ 127 < idx) ∨ (cat = 3 ∧ cfg.nRpn ≤ idx) ∨ (cat = 4 ∧ cfg.nNrpn ≤ idx) ∨
  (cat = 5 ∧ 2 < idx) ∨ (cat = 6 ∧ 1 < idx) ∨ (cat = 7 ∧ 1 < idx) ∨ (cat = 8 ∧ 3 < idx) ∨ 9 ≤ cat

/-- Evaluating this source of an entry is malformed: a bad selector, or the reserved shape under a source that is present
(R222 b and c). -/
def malformedSource (cfg : Config) (sel : BitVec 16) (xf : BitVec 8) : Prop :=
  badSelector cfg sel ∨ (4096 ≤ sel.toNat ∧ xf.toNat / 4 % 4 = 3)

/-- Evaluating the two sources of this entry is malformed (R222 b and c). -/
def malformedEntry (cfg : Config) (e : CbEntry) : Prop :=
  malformedSource cfg e.src1 e.xf1 ∨ malformedSource cfg e.src2 e.xf2

/-- A per-tick evaluation of `n` entries from `base` on meets a malformed one: a destination number above 23, or a malformed
source of an entry that it does not skip (R216, R218, R222). -/
def malformedAtTick (s : State) (base n : Nat) : Prop :=
  ∃ j < n, 24 ≤ (s.cbAt (base + j)).dstn.toNat ∨
    (2 ≤ (s.cbAt (base + j)).dstn.toNat ∧ malformedEntry s.cfg (s.cbAt (base + j)))

/-- A note-on evaluation of `n` entries from `base` on meets a malformed one among those it does not skip (R219, R222). -/
def malformedAtNoteOn (s : State) (base n : Nat) : Prop :=
  ∃ j < n, (s.cbAt (base + j)).dstn.toNat < 2 ∧ malformedEntry s.cfg (s.cbAt (base + j))

/-- The two evaluations of an `Init` with this record meet a malformed entry (R185 step 7). -/
def malformedAtInit (s : State) (r : LaunchRec) : Prop :=
  malformedAtNoteOn s r.cbbase.toNat r.cbcnt.toNat ∨ malformedAtTick s r.cbbase.toNat r.cbcnt.toNat

/-- Entry number `j` of the voice's block list (R211). -/
def block (s : State) (v : Voice) (j : Nat) : CbEntry := s.cbAt (v.ident.cbbase.toNat + j)

/-- The contribution of an entry, exactly (R216): the product of scale and both transforms, floored after one shift by 30. -/
def contributionOf (s : State) (v : Voice) (e : CbEntry) : Int :=
  e.scale.toInt * transform s v e.src1 e.xf1 * transform s v e.src2 e.xf2 / 1073741824

/-- The exact sum over the voice's block list for destination `k` (R210). -/
def resolved (s : State) (v : Voice) (k : Nat) : Int :=
  ((List.range v.ident.cbcnt.toNat).map fun j =>
    if (block s v j).dstn.toNat = k then contributionOf s v (block s v j) else 0).sum

/-! ## Invariants -/

/-- The three memories are in their canonical form, list only elements of their spaces (R71, R72, R73), and field 4 of a
descriptor holds two bits (R111). -/
abbrev TablesInSpace (s : State) : Prop :=
  s.wave.wf = true ∧ s.wt.wf = true ∧ s.cb.wf = true ∧
  (∀ e ∈ s.wave, e.1 < s.cfg.waveSize) ∧
  (∀ e ∈ s.wt, e.1 < 7 * s.cfg.nwt ∧ (e.1 % 7 = 4 → e.2.toNat < 4)) ∧
  (∀ e ∈ s.cb, e.1 < 3 * s.cfg.ncb)

/-- The master registers (R28, R29), `SILCNT` (R23) and `WPTR` (R30) lie in their ranges, and only the implemented bits of
`ERR` and `IEN` are set (R27). -/
abbrev RegistersInRange (s : State) : Prop :=
  s.mvol.toNat ≤ 32768 ∧ s.mbal.toNat ≤ 32768 ∧ s.mfine.toNat ≤ 32768 ∧ s.mcoarse.toNat ≤ 32768 ∧
  s.gprevl.toNat ≤ 32768 ∧ s.gprevr.toNat ≤ 32768 ∧ s.silcnt.toNat ≤ 5 ∧ s.wptr.toNat ≤ s.cfg.waveSize ∧
  s.err &&& ~~~0x033F#16 = 0 ∧ s.ien &&& ~~~0x033F#16 = 0

/-- An envelope generator's level is in its range, and 0 in the stages IDLE and DONE (R41, R249). -/
abbrev EgInRange (e : Eg) : Prop :=
  e.level.toNat ≤ 32768 ∧ (e.stage = .idle → e.level = 0) ∧ (e.stage = .done → e.level = 0)

/-- The Q15 registers of a voice lie in their ranges (R41, R42, R43, R46, R277). -/
abbrev VoiceInRange (v : Voice) : Prop :=
  EgInRange v.eg0 ∧ EgInRange v.eg1 ∧ v.lfo0.out.toNat ≤ 32768 ∧ v.lfo1.out.toNat ≤ 32768 ∧
  v.shut.toNat ≤ 32768 ∧ v.audio.anew.toNat ≤ 32768 ∧ v.audio.aold.toNat ≤ 32768 ∧
  v.audio.gl.toNat ≤ 32768 ∧ v.audio.gr.toNat ≤ 32768 ∧ v.audio.rv.toNat ≤ 32768 ∧ v.audio.ch.toNat ≤ 32768 ∧
  v.audio.tnew.toNat < 2147483648 ∧ v.audio.told.toNat < 2147483648

/-- Every voice's registers lie in their ranges. -/
abbrev VoicesInRange (s : State) : Prop := ∀ v ∈ s.voices, VoiceInRange v

/-- A slot in RELEASING_PENDING is silencing (R180), and a silencing voice is not held (R191). -/
abbrev VoiceProtocol (v : Voice) : Prop :=
  (v.act = true → v.pend.valid = true → v.flags.silencing = true) ∧ (v.flags.silencing = true → v.flags.on = false)

/-- The slot protocol of every slot. -/
abbrev SlotsFollowProtocol (s : State) : Prop := ∀ v ∈ s.voices, VoiceProtocol v

/-- A read position inside a view: the index is in the view, in the loop's part of it while the loop is in force, and only
a ping-pong loop in force runs backward (R272, R274). -/
abbrev PosInView (d : Desc) (p : Pos) : Prop :=
  p.srci.toNat < d.len.toNat ∧
  (p.loopen = true → d.lmode ≠ .off ∧ p.srci.toNat < d.lstart.toNat + d.llen.toNat) ∧
  (p.dir = .down → d.lmode = .pingpong ∧ p.loopen = true) ∧
  (d.lmode = .pingpong → p.loopen = true)

/-- An active voice plays inside WAVE and reads its blocks inside CB (R184, R271, R272). -/
abbrev VoicePlaysInView (cfg : Config) (v : Voice) : Prop :=
  v.act = true → DescPlayable cfg.waveSize v.desc ∧ PosInView v.desc v.pos ∧ v.ident.wtidx.toNat < cfg.nwt ∧
    v.ident.cbbase.toNat + v.ident.cbcnt.toNat ≤ cfg.ncb

/-- Every active voice plays inside WAVE and CB (R385: no command sequence can "make the VEA read outside its memories"). -/
abbrev VoicesPlayInView (s : State) : Prop := ∀ v ∈ s.voices, VoicePlaysInView s.cfg v

/-- Every array has the size the configuration gives it (R34, R20, R47, R48), and `OUTRD` is an index of `OUTBUF` or its
end (R48). -/
abbrev Shaped (s : State) : Prop :=
  s.voices.length = s.cfg.nv ∧
  (∀ c : Fin 16, s.chans[c].rpn.length = s.cfg.nRpn ∧ s.chans[c].nrpn.length = s.cfg.nNrpn) ∧
  s.buses.l.length = s.cfg.chunk ∧ s.buses.r.length = s.cfg.chunk ∧ s.buses.m.length = s.cfg.chunk ∧
  s.buses.e1.length = s.cfg.chunk ∧ s.buses.e2.length = s.cfg.chunk ∧
  s.buses.dl.length = s.cfg.chunk ∧ s.buses.dr.length = s.cfg.chunk ∧ s.buses.dm.length = s.cfg.chunk ∧
  s.buses.de1.length = s.cfg.chunk ∧ s.buses.de2.length = s.cfg.chunk ∧
  s.outbuf.length = 4 * s.cfg.chunk ∧ s.outrd ≤ 4 * s.cfg.chunk

/-- The idle path is entered only while open, at the end of five silent ticks (R23, R335, R370). -/
abbrev IdleIsOpen (s : State) : Prop := s.idle = true → s.run = true ∧ s.silcnt = 5

/-- While the machine is closed its dynamic state is the reset or post-`CLOSE` state, but for what `MSET` and `ASENSE` write
and the activity mark (R121: "because nothing that changes it can run while closed"; R382). -/
abbrev ClosedIsQuiet (s : State) : Prop :=
  s.run = false →
    s.idle = false ∧ s.silcnt = 0 ∧ s.tickcnt = 0 ∧ s.ascnt = 0 ∧ s.gprevl = 32768 ∧ s.gprevr = 32768 ∧
    s.fxst = s.cfg.fx.init ∧ (∀ c : Fin 16, s.chans[c] = Channel.reset s.cfg) ∧
    (∀ v ∈ s.voices, v = Voice.reset) ∧ s.buses = Buses.zero s.cfg.chunk ∧
    s.outbuf = List.replicate (4 * s.cfg.chunk) 0 ∧ s.outrd = 4 * s.cfg.chunk

/-- Every element of the five delay buses is within ±2^28 (R330, R321). -/
abbrev DelaysBounded (s : State) : Prop :=
  ∀ x ∈ s.buses.dl ++ s.buses.dr ++ s.buses.dm ++ s.buses.de1 ++ s.buses.de2,
    -268435456 ≤ x.toInt ∧ x.toInt ≤ 268435456

/-- The model's own record of rewritten samples (log entry 5) lies in live views only (R386). -/
abbrev HazardsInLiveViews (s : State) : Prop :=
  ∀ v ∈ s.voices, ∀ e ∈ v.stale,
    v.act = true ∧ v.desc.base.toNat ≤ e.1 ∧ e.1 < v.desc.base.toNat + v.desc.len.toNat

/-- No voice's view has been rewritten under it (R386 concerns no read). -/
abbrev NoHazard (s : State) : Prop := ∀ v ∈ s.voices, v.stale = []

/-! ## Reset values (R51) -/

/-- A voice slot at R51's values: FREE, every field 0 but `DIR` = +1, `LFO[i].OUT` = 16384, `GL` = `GR` = 32768, `MONO` = 1. -/
def VoiceAtReset (v : Voice) : Prop :=
  v.act = false ∧
  v.pend = { valid := false, launch := {
    chan := 0, note := 0, vel := 0, vid := 0, wt := 0, cbbase := 0, cbcnt := 0, excl := 0, reltrig := false, gofs := 0,
    grate := 0 } } ∧
  v.ident = { chan := 0, note := 0, vel := 0, vid := 0, wtidx := 0, cbbase := 0, cbcnt := 0, excl := 0, reltrig := false } ∧
  v.flags = { on := false, sus := false, sost := false, silencing := false, final := false, first := false } ∧
  v.forced = { fvelv := false, fkeyv := false, fvel := 0, fkey := 0 } ∧ v.pp = 0 ∧ (∀ k : Fin 24, v.dst[k] = 0) ∧
  v.eg0 = { stage := .idle, level := 0 } ∧ v.eg1 = { stage := .idle, level := 0 } ∧
  v.lfo0 = { ph := 0, dcnt := 0, out := 16384 } ∧ v.lfo1 = { ph := 0, dcnt := 0, out := 16384 } ∧
  v.shut = 0 ∧ v.gofs = 0 ∧ v.grate = 0 ∧
  v.desc = { base := 0, len := 0, lstart := 0, llen := 0, lmode := .off, rate := 0, corr := 0 } ∧
  v.pos = { srci := 0, frac := 0, dir := .up, loopen := false, ended := false } ∧
  v.audio = { tnew := 0, told := 0, anew := 0, aold := 0, gl := 32768, gr := 32768, mono := true, rv := 0, ch := 0 } ∧
  v.stale = []

/-- The state that both `Reset` and `CLOSE` restore: the rows of R51 whose column "also restored by CLOSE" says yes. -/
def DynamicAtReset (s : State) : Prop :=
  s.run = false ∧ s.idle = false ∧ s.silcnt = 0 ∧ s.tickcnt = 0 ∧ s.cmdseen = false ∧ s.asen = false ∧ s.ascnt = 0 ∧
  s.mvol = 32768 ∧ s.mbal = 16384 ∧ s.mfine = 16384 ∧ s.mcoarse = 16384 ∧ s.gprevl = 32768 ∧ s.gprevr = 32768 ∧
  s.fxst = s.cfg.fx.init ∧
  (∀ c : BitVec 4, (∀ n : Fin 128, (s.chan c).cc[n] = 0) ∧ (s.chan c).pb = 8192 ∧ (s.chan c).cp = 0 ∧
    (s.chan c).rpn = List.replicate s.cfg.nRpn 0 ∧ (s.chan c).nrpn = List.replicate s.cfg.nNrpn 0) ∧
  s.voices.length = s.cfg.nv ∧ (∀ v ∈ s.voices, VoiceAtReset v) ∧
  (∀ b ∈ [s.buses.l, s.buses.r, s.buses.m, s.buses.e1, s.buses.e2, s.buses.dl, s.buses.dr, s.buses.dm, s.buses.de1,
    s.buses.de2], b = List.replicate s.cfg.chunk 0) ∧
  s.outbuf = List.replicate (4 * s.cfg.chunk) 0 ∧ s.outrd = 4 * s.cfg.chunk

/-! ## Ticks -/

/-- A tick is due: `Refill` is the next transition, the machine is open, its buffer is empty, and it is not idle (R81). -/
abbrev TickDue (s : State) : Prop :=
  s.sched.head? = some .refill ∧ s.run = true ∧ s.outrd = 4 * s.cfg.chunk ∧ s.idle = false

/-- The watchdog fires in the tick that is due (R302). -/
abbrev WatchdogDue (s : State) : Prop := s.asen = true ∧ s.cfg.fs / s.cfg.chunk < min (s.ascnt.toNat + 1) 65535

/-- The record that a slot queues is promoted by the tick that is due, its voice started (R187, R302, R303). -/
abbrev PromotedBy (s : State) (v : Voice) : Prop :=
  slotState v = .freeQueued ∧ ¬ WatchdogDue s ∧ WavetableOk s v.pend.launch ∧ BlockRangeOk s v.pend.launch

/-- R355's causes of `CBBAD` in the next transition: a `VSTART` or a promotion of a record whose block range is bad, one that
starts a voice and meets a malformed entry, or an active voice whose evaluation in the tick meets one. -/
def CbbadCause (s : State) : Prop :=
  (∃ slot, nextCommand s = some (.vstart slot) ∧ s.run = true ∧ slot.toNat < s.cfg.nv ∧
    (s.voice slot.toNat).pend.valid = false ∧ WavetableOk s s.lr ∧
    (¬ BlockRangeOk s s.lr ∨ ((s.voice slot.toNat).act = false ∧ malformedAtInit s s.lr))) ∨
  (TickDue s ∧ ∃ v < s.voices.length,
    ((s.voice v).act = true ∧ malformedAtTick s (s.voice v).ident.cbbase.toNat (s.voice v).ident.cbcnt.toNat) ∨
    (slotState (s.voice v) = .freeQueued ∧ ¬ WatchdogDue s ∧ WavetableOk s (s.voice v).pend.launch ∧
      (¬ BlockRangeOk s (s.voice v).pend.launch ∨ malformedAtInit s (s.voice v).pend.launch)))

/-- `w` is what a tick makes of a voice that begins it as `x`: its control logic on `s`, then its audio logic, each once
(R300, R325). The list `stale` is the model's own (log entry 5). -/
def TickedFrom (s : State) (x w : Voice) : Prop :=
  ∃ (c : Voice) (ctr : Nat), c = controlLogic s x ∧
    w.pos = (renderVoice s c ctr).pos ∧
    w.act = !(c.flags.final || (renderVoice s c ctr).pos.ended) ∧
    w.audio = { c.audio with told := c.audio.tnew, aold := c.audio.anew } ∧
    w.flags = { c.flags with first := false } ∧
    w.stale = (if w.act = true then x.stale else []) ∧
    { w with act := true, pos := c.pos, audio := c.audio, flags := c.flags, stale := c.stale } = c

/-- The voice that a slot renders in the tick that is due, if it renders one: an active voice after its control logic, silenced
first if the watchdog fires, or a promoted one (R300, R302, R303). -/
def soundsAs (s : State) (v : Voice) : Option Voice :=
  if v.act = true then some (controlLogic s (if WatchdogDue s then silenced v else v))
  else if PromotedBy s v then some (controlLogic s (initVoice s v.pend.launch))
  else none

/-- The exact sum, over the voices that the tick renders, of what frame `j` adds to one bus (R321 to R323). -/
def mixed (s : State) (bus : FrameAdd → Int) (j : Nat) : Int :=
  ((s.voices.filterMap (soundsAs s)).map fun c => ((renderVoice s c 0).frames.map bus).getD j 0).sum

/-! ## The effect unit -/

/-- R330's contract of an answer on chunks of `n` frames: arrays of `n` values, delay elements within ±2^28. -/
abbrev FxContract (n : Nat) (o : FxOut) : Prop :=
  o.l.length = n ∧ o.r.length = n ∧ o.dl.length = n ∧ o.dr.length = n ∧ o.dm.length = n ∧ o.de1.length = n ∧
  o.de2.length = n ∧
  ∀ x ∈ o.dl ++ o.dr ++ o.dm ++ o.de1 ++ o.de2, -268435456 ≤ x.toInt ∧ x.toInt ≤ 268435456

/-- `Fx.control(st)`: nothing for the null unit (R331), a count for the test unit, free for an external one (log entry 8). -/
def fxControlled (cfg : Config) (st : FxState) : FxState :=
  match cfg.fx with
  | .null => st
  | .echo => st + 1
  | .external u => Config.fxControl u st

/-- `Fx.audio(st, L, R, E1, E2)`: R331 for the null unit, each send on one delay bus for the test unit, free for an external
one (log entry 8). -/
def fxAnswer (cfg : Config) (st : FxState) (l r e1 e2 : List (BitVec 32)) : FxOut :=
  match cfg.fx with
  | .null =>
    { st := st, l := l, r := r, dl := List.replicate cfg.chunk 0, dr := List.replicate cfg.chunk 0,
      dm := List.replicate cfg.chunk 0, de1 := List.replicate cfg.chunk 0, de2 := List.replicate cfg.chunk 0 }
  | .echo =>
    { st := st, l := l, r := r, dl := e1, dr := e2, dm := List.replicate cfg.chunk 0,
      de1 := List.replicate cfg.chunk 0, de2 := List.replicate cfg.chunk 0 }
  | .external u => Config.fxAudio u cfg.chunk st l r e1 e2

end Sys2Proof.Safety
end

