-- ==== Sys2Proof/Certificates/Slice0/Obligations.lean ====
section
/-! DEFINITION. The statements for the provers, family by family: the commands, the machine's rules, the tick, the datapath,
reset, the invariants. -/

open Sys2Proof Sys2Proof.Machine Sys2Proof.Safety

/-! ## Encoding -/

/-- Decoding an encoded command gives it back, whatever its operands (R100, R101, R113). -/
def Obligations.DecodeInvertsEncode : Prop := ∀ i : Instr, decode (encode i) = .ok i

/-- The undefined opcodes are exactly the 229 that R115 lists, and delivering one raises `ILLOP` and changes nothing else,
not even the activity mark (R103 stage 1, R115, R351). -/
def Obligations.UndefinedOpcodesRaiseIllop : Prop :=
  (∀ w : CmdWord, (∃ e, decode w = .error e) ↔ undefinedOp (w.toNat / 2 ^ 56)) ∧
  ((List.range 256).countP fun op => (decode (BitVec.ofNat 64 (op * 2 ^ 56))).toOption.isNone) = 229 ∧
  ∀ (s : State) (w : CmdWord) (rest : List Event), s.sched = .cmd w :: rest → undefinedOp (w.toNat / 2 ^ 56) →
    step s = .next { s with sched := rest, err := s.err ||| 1 }

/-- A field that a command does not read is ignored on decode: two words with the same opcode and the same fields read
decode alike (R102, R101's column "fields"). -/
def Obligations.ReservedFieldsAreIgnored : Prop :=
  ∀ (op a a' : BitVec 8) (b b' : BitVec 16) (d d' : BitVec 32),
    ((fieldsRead op.toNat).1 = true → a = a') → ((fieldsRead op.toNat).2.1 = true → b = b') →
    ((fieldsRead op.toNat).2.2 = true → d = d') →
    decode (op ++ a ++ b ++ d) = decode (op ++ a' ++ b' ++ d')

/-- The example words of R113's table are the commands written beside them. -/
def Obligations.WrittenWordsDecode : Prop :=
  decode 0x0100000000000000 = .ok .open_ ∧
  decode 0x0300000000004000 = .ok (.mset 0 16384) ∧
  decode 0x060000000000003F = .ok (.ienset 0x3F) ∧
  decode 0x0700000200000000 = .ok (.rdg 2) ∧
  decode 0x1001000700000064 = .ok (.ccwr 1 7 100) ∧
  decode 0x1100000000002000 = .ok (.pbwr 0 8192) ∧
  decode 0x1300000000000100 = .ok (.rpnwr 0 0 256) ∧
  decode 0x1509000000000001 = .ok (.choff 9 1) ∧
  decode 0x21000000FFFFF448 = .ok (.wwr (-3000)) ∧
  decode 0x2201000000000006 = .ok (.wtwr 1 0 6) ∧
  decode 0x2302000300010000 = .ok (.cbwr 2 3 0x10000) ∧
  decode 0x300100000000003C = .ok (.lrwr 1 60) ∧
  decode 0x3100000000000000 = .ok (.vstart 0) ∧
  decode 0x3202000000000000 = .ok (.voff 2 0) ∧
  decode 0x360100000000005A = .ok (.ppwr 1 90) ∧
  decode 0x3703005100000000 = .ok (.rdv 3 0x51)

/-! ## Commands -/

/-- When HOST delivers a word that decodes to i, the step is exec of i, with that delivery gone from the schedule (R5, R103).
The schedule is the model's own (log entry 2). No command and no transition stops the machine (R361, R385). -/
def Obligations.StepRunsTheDecodedCommand : Prop :=
  (∀ (s : State) (w : CmdWord) (rest : List Event) (i : Instr), s.sched = .cmd w :: rest → decode w = .ok i →
    step s = exec i { s with sched := rest }) ∧
  (∀ (i : Instr) (s : State), ∃ t, exec i s = .next t) ∧ ∀ s : State, ∃ t, step s = .next t

/-- `NOP` changes no state, open or closed, and every word with opcode 0 is a `NOP` (R120). -/
def Obligations.NopChangesNothing : Prop :=
  (∀ s : State, exec .nop s = .next s) ∧ ∀ w : CmdWord, w.toNat / 2 ^ 56 = 0 → decode w = .ok .nop

/-- Every defined command except `NOP`, `RDG` and `RDV` marks activity, whether or not it passes its checks and whether or
not the machine is open; those three leave the marks alone; the marking does not change `SILCNT`, which only `OPEN` and
`CLOSE` write (R104). A `CLOSE` that found `RUN` = 1 leaves `CMDSEEN` = 0 (R122). -/
def Obligations.ActivityMarking : Prop :=
  ∀ (i : Instr) (s t : State), exec i s = .next t →
    (i = .nop ∨ isRead i = true → t.cmdseen = s.cmdseen ∧ t.ascnt = s.ascnt ∧ t.idle = s.idle) ∧
    (i ≠ .nop → isRead i = false →
      t.ascnt = 0 ∧ t.idle = false ∧ t.cmdseen = !decide (i = .close ∧ s.run = true)) ∧
    (i ≠ .open_ → i ≠ .close → t.silcnt = s.silcnt)

/-- While the machine is closed, the thirteen commands of the closed set do nothing beyond the activity marking; the other
commands but `OPEN` and `CLOSE` work the same whether it is open or closed, where `RDG` reads `RUN` itself (R105). -/
def Obligations.ClosedSetDoesNothingWhileClosed : Prop :=
  (∀ (i : Instr) (s : State), inClosedSet i = true → s.run = false → exec i s = .next (marked s)) ∧
  ∀ (i : Instr) (s t : State) (b : Bool), inClosedSet i = false → i ≠ .open_ → i ≠ .close → i ≠ .rdg 1 →
    exec i s = .next t → exec i { s with run := b } = .next { t with run := b }

/-- The list of range checks of R352 is complete: a command with an operand out of range changes nothing but the activity
mark and `RANGE` (a read answers 0 besides and marks nothing), and no other command raises `RANGE`. -/
def Obligations.RangeChecksAreComplete : Prop :=
  (∀ (i : Instr) (s : State), outOfRange s i → (inClosedSet i = true → s.run = true) → isRead i = false →
    exec i s = .next (refused 1 s)) ∧
  (∀ (i : Instr) (s : State), outOfRange s i → isRead i = true →
    exec i s = .next { s with err := s.err ||| 2, rsp := 0 }) ∧
  ∀ (i : Instr) (s t : State), ¬ outOfRange s i → exec i s = .next t → t.err.getLsbD 1 = true → s.err.getLsbD 1 = true

/-- `OPEN` opens a closed machine with an empty buffer and changes nothing else of it; on an open one it only marks
activity (R121). That `OPEN` does not write `OUTBUF`, which R48 calls zero at `OPEN`, is the model's reading (log entry
10). `CLOSE` on an open machine restores what R51's second column marks "yes" and keeps WAVE, WT, CB, `WPTR`,
`LR`, `ERR`, `IEN` and `RSP`; on a closed one it only marks activity (R122). -/
def Obligations.OpenAndClose : Prop :=
  (∀ s : State, s.run = false → exec .open_ s = .next { marked s with run := true, silcnt := 0, outrd := 4 * s.cfg.chunk }) ∧
  (∀ s : State, s.run = true → exec .open_ s = .next (marked s)) ∧
  (∀ s : State, s.run = false → exec .close s = .next (marked s)) ∧
  ∀ s : State, s.run = true → ∃ t, exec .close s = .next t ∧ DynamicAtReset t ∧ t.cfg = s.cfg ∧
    (∀ a, t.waveRead a = s.waveRead a) ∧ (∀ i f, t.wtRead i f = s.wtRead i f) ∧ (∀ i f, t.cbRead i f = s.cbRead i f) ∧
    t.wave = s.wave ∧ t.wt = s.wt ∧ t.cb = s.cb ∧
    t.wptr = s.wptr ∧ t.lr = s.lr ∧ t.err = s.err ∧ t.ien = s.ien ∧ t.rsp = s.rsp

/-- `MSET` writes min(`D`, 32768) to the master register it names, and to nothing else (R123). -/
def Obligations.MsetSaturates : Prop :=
  ∀ (s : State) (reg : BitVec 16) (value : BitVec 32), reg.toNat ≤ 3 → ∃ t x, exec (.mset reg value) s = .next t ∧
    BitVec.toNat (w := 16) x = min value.toNat 32768 ∧
    t.mvol = (if reg.toNat = 0 then x else s.mvol) ∧ t.mbal = (if reg.toNat = 1 then x else s.mbal) ∧
    t.mfine = (if reg.toNat = 2 then x else s.mfine) ∧ t.mcoarse = (if reg.toNat = 3 then x else s.mcoarse) ∧
    { t with mvol := s.mvol, mbal := s.mbal, mfine := s.mfine, mcoarse := s.mcoarse } = marked s

/-- `ASENSE` writes `ASEN` (R124), `ERRCLR` clears the `ERR` bits its mask has set (R125), `IENSET` writes the implemented
bits of `IEN` (R126), each nothing else; and `irq` is 1 exactly when some bit is set in both (R359). -/
def Obligations.EnablesAndErrorsAreWritten : Prop :=
  (∀ (s : State) (d : BitVec 32), exec (.asense d) s = .next { marked s with asen := d.getLsbD 0 }) ∧
  (∀ (s : State) (d : BitVec 32), ∃ t, exec (.errclr d) s = .next t ∧ { t with err := s.err } = marked s ∧
    ∀ n < 16, t.err.getLsbD n = (s.err.getLsbD n && !d.getLsbD n && decide (n ≤ 5 ∨ n = 8 ∨ n = 9))) ∧
  (∀ (s : State) (d : BitVec 32), ∃ t, exec (.ienset d) s = .next t ∧ { t with ien := s.ien } = marked s ∧
    ∀ n < 16, t.ien.getLsbD n = (d.getLsbD n && decide (n ≤ 5 ∨ n = 8 ∨ n = 9))) ∧
  ∀ s : State, s.irq = true ↔ ∃ n < 16, s.err.getLsbD n = true ∧ s.ien.getLsbD n = true

/-- `RDG` answers the word of R127's table and changes nothing but `RSP`; a register number above 12 raises `RANGE` and
answers 0. (`WPTR` is here any value of 32 bits; its value 2^32 is in `WavePointerAndSamples`.) -/
def Obligations.RdgAnswersItsTable : Prop :=
  (∀ (s : State) (reg : BitVec 16), reg.toNat ≤ 12 → ∃ r : BitVec 32, exec (.rdg reg) s = .next { s with rsp := r } ∧
    (reg = 0 → r = 0x4D440007) ∧
    (reg = 1 → r.toNat = s.run.toNat + 2 * s.idle.toNat + 4 * s.asen.toNat + 16 * s.silcnt.toNat +
      256 * s.cmdseen.toNat + 512 * (decide (s.outrd = 4 * s.cfg.chunk)).toNat) ∧
    (reg = 2 → r.toNat = s.err.toNat) ∧ (reg = 3 → r.toNat = s.ien.toNat) ∧ (reg = 4 → r = s.tickcnt) ∧
    (reg = 5 → r.toNat = s.mvol.toNat) ∧ (reg = 6 → r.toNat = s.mbal.toNat) ∧ (reg = 7 → r.toNat = s.mfine.toNat) ∧
    (reg = 8 → r.toNat = s.mcoarse.toNat) ∧
    (reg = 9 → r = BitVec.ofNat 32 ((List.range s.voices.length).countP fun v =>
      (s.voice v).act || (s.voice v).pend.valid)) ∧
    (reg = 10 → r = BitVec.ofNat 32 s.cfg.nv) ∧
    (reg = 11 → s.wptr.toNat < 4294967296 → r.toNat = s.wptr.toNat) ∧ (reg = 12 → r.toNat = s.ascnt.toNat)) ∧
  ∀ (s : State) (reg : BitVec 16), 12 < reg.toNat → exec (.rdg reg) s = .next { s with err := s.err ||| 2, rsp := 0 }

/-- The five channel writes on an open machine store the low bits of `D` in the value they name, and change nothing else of
that channel, no other channel, and nothing else of the machine but the activity mark (R140 to R144, R106). -/
def Obligations.ChannelWritesChangeOneValue : Prop :=
  ∀ (s : State) (chan : BitVec 8) (value : BitVec 32), s.run = true → Shaped s → chan.toNat ≤ 15 →
    (∀ ctrl : BitVec 16, ctrl.toNat ≤ 127 → ∃ t, exec (.ccwr chan ctrl value) s = .next t ∧
      OnlyChannel s t (chan.setWidth 4) ∧
      { t.chan (chan.setWidth 4) with cc := (s.chan (chan.setWidth 4)).cc } = s.chan (chan.setWidth 4) ∧
      ∀ n : Fin 128, (t.chan (chan.setWidth 4)).cc[n] =
        if n.val = ctrl.toNat then value.setWidth 7 else (s.chan (chan.setWidth 4)).cc[n]) ∧
    (∃ t, exec (.pbwr chan value) s = .next t ∧ OnlyChannel s t (chan.setWidth 4) ∧
      t.chan (chan.setWidth 4) = { s.chan (chan.setWidth 4) with pb := value.setWidth 14 }) ∧
    (∃ t, exec (.cpwr chan value) s = .next t ∧ OnlyChannel s t (chan.setWidth 4) ∧
      t.chan (chan.setWidth 4) = { s.chan (chan.setWidth 4) with cp := value.setWidth 7 }) ∧
    (∀ slot : BitVec 16, slot.toNat < s.cfg.nRpn → ∃ t, exec (.rpnwr chan slot value) s = .next t ∧
      OnlyChannel s t (chan.setWidth 4) ∧
      { t.chan (chan.setWidth 4) with rpn := (s.chan (chan.setWidth 4)).rpn } = s.chan (chan.setWidth 4) ∧
      (t.chan (chan.setWidth 4)).rpn.length = s.cfg.nRpn ∧
      ∀ n < s.cfg.nRpn, (t.chan (chan.setWidth 4)).rpn.getD n 0 =
        if n = slot.toNat then value.setWidth 14 else (s.chan (chan.setWidth 4)).rpn.getD n 0) ∧
    (∀ slot : BitVec 16, slot.toNat < s.cfg.nNrpn → ∃ t, exec (.nrpnwr chan slot value) s = .next t ∧
      OnlyChannel s t (chan.setWidth 4) ∧
      { t.chan (chan.setWidth 4) with nrpn := (s.chan (chan.setWidth 4)).nrpn } = s.chan (chan.setWidth 4) ∧
      (t.chan (chan.setWidth 4)).nrpn.length = s.cfg.nNrpn ∧
      ∀ n < s.cfg.nNrpn, (t.chan (chan.setWidth 4)).nrpn.getD n 0 =
        if n = slot.toNat then value.setWidth 14 else (s.chan (chan.setWidth 4)).nrpn.getD n 0)

/-- `CHOFF` on an open machine drops the pending records of its channel and releases (mode 0, if held) or silences (mode 1)
the channel's active voices, whatever the pedals (R145, R147); `CHREL` clears the marks its mask names and releases a voice
that was marked so and now has no mark (R146). Slots of other channels are untouched. -/
def Obligations.ChannelOffAndRelease : Prop :=
  ∀ (s : State) (chan : BitVec 8) (d : BitVec 32), s.run = true → chan.toNat ≤ 15 →
    (∃ t, exec (.choff chan d) s = .next t ∧ { t with voices := s.voices } = marked s ∧
      t.voices.length = s.voices.length ∧
      ∀ v < s.voices.length, ∃ x,
        x = (if (s.voice v).pend.valid = true ∧ (s.voice v).pend.launch.chan = chan.setWidth 4 then
          { s.voice v with pend := { (s.voice v).pend with valid := false } } else s.voice v) ∧
        t.voice v =
          if (s.voice v).act = true ∧ (s.voice v).ident.chan = chan.setWidth 4 then
            if d.getLsbD 0 = true then silenced x else if (s.voice v).flags.on = true then released x else x
          else x) ∧
    ∃ t, exec (.chrel chan d) s = .next t ∧ { t with voices := s.voices } = marked s ∧
      t.voices.length = s.voices.length ∧
      ∀ v < s.voices.length,
        ((s.voice v).act = false ∨ (s.voice v).ident.chan ≠ chan.setWidth 4 → t.voice v = s.voice v) ∧
        ((s.voice v).act = true → (s.voice v).ident.chan = chan.setWidth 4 →
          ∃ x, x = { s.voice v with flags := { (s.voice v).flags with
              sus := (s.voice v).flags.sus && !d.getLsbD 0
              sost := (s.voice v).flags.sost && !d.getLsbD 1 } } ∧
          t.voice v =
            if ((d.getLsbD 0 = true ∧ (s.voice v).flags.sus = true) ∨ (d.getLsbD 1 = true ∧ (s.voice v).flags.sost = true)) ∧
              x.flags.sus = false ∧ x.flags.sost = false then released x else x)

/-- `WPTR` sets the pointer (R160). `WWR` writes the low 16 bits of `D` to the element at `WPTR`, advances `WPTR` by one,
also to a WAVE_SIZE of 2^32, and changes nothing else: no other element, no register but the activity mark, and of a slot at
most the model's own list of rewritten samples, and that only of an active slot whose view holds the element (R161, R386). A
voice then reads the element's present value or one it held before (R386; which one is the free choice of log entry 5).
With the pointer at WAVE_SIZE, `WWR` raises `RANGE` and writes nothing (R161). `RDG 11` answers the pointer's low 32 bits, by
the model's reading also where it is 2^32 (log entry 7). -/
def Obligations.WavePointerAndSamples : Prop :=
  (∀ (s : State) (stale : List (Nat × BitVec 16)) (ctr a : Nat),
    ((s.voiceRead stale ctr a).1 = s.waveRead a ∨ (a, (s.voiceRead stale ctr a).1) ∈ stale) ∧
    ((∀ x, (a, x) ∉ stale) → s.voiceRead stale ctr a = (s.waveRead a, ctr))) ∧
  (∀ (s : State) (a : BitVec 32), a.toNat < s.cfg.waveSize → ∃ t, exec (.wptr a) s = .next t ∧
    t.wptr.toNat = a.toNat ∧ { t with wptr := s.wptr } = marked s) ∧
  (∀ (s : State) (d : BitVec 32), s.cfg.waveSize ≤ s.wptr.toNat → exec (.wwr d) s = .next (refused 1 s)) ∧
  (∀ s : State, exec (.rdg 11) s = .next { s with rsp := BitVec.ofNat 32 s.wptr.toNat }) ∧
  ∀ (s : State) (d : BitVec 32), s.wptr.toNat < s.cfg.waveSize → ∃ t, exec (.wwr d) s = .next t ∧
    (∀ a, t.waveRead a = if a = s.wptr.toNat then d.setWidth 16 else s.waveRead a) ∧
    (∀ a, a ≠ s.wptr.toNat → t.wave.read? a = s.wave.read? a) ∧
    t.wptr = s.wptr + 1 ∧ (s.cfg.waveSize ≤ 4294967296 → t.wptr.toNat = s.wptr.toNat + 1) ∧
    { t with wave := s.wave, wptr := s.wptr, voices := s.voices } = marked s ∧ t.voices.length = s.voices.length ∧
    ∀ v < s.voices.length, { t.voice v with stale := (s.voice v).stale } = s.voice v ∧
      (t.voice v).stale =
        if (s.voice v).act = true ∧ (s.voice v).desc.base.toNat ≤ s.wptr.toNat ∧
          s.wptr.toNat < (s.voice v).desc.base.toNat + (s.voice v).desc.len.toNat
        then (s.wptr.toNat, s.waveRead s.wptr.toNat) :: (s.voice v).stale else (s.voice v).stale

/-- `WTWR` writes one field of one descriptor, `LMODE` as two bits, and no other field, register or voice (R162); `CBWR`
writes one word of one entry and nothing else (R163). The element addresses are the model's own (log entry 3). -/
def Obligations.TableWritesChangeOneField : Prop :=
  (∀ (s : State) (field : BitVec 8) (index : BitVec 16) (d : BitVec 32), field.toNat ≤ 6 → index.toNat < s.cfg.nwt →
    ∃ t, exec (.wtwr field index d) s = .next t ∧ { t with wt := s.wt } = marked s ∧
      (∀ a, a ≠ wtAddr index.toNat field.toNat → t.wt.read? a = s.wt.read? a) ∧
      ∀ i f, f ≤ 6 → t.wtRead i f =
        if i = index.toNat ∧ f = field.toNat then if f = 4 then BitVec.ofNat 32 (d.toNat % 4) else d
        else s.wtRead i f) ∧
  ∀ (s : State) (field : BitVec 8) (index : BitVec 16) (d : BitVec 32), field.toNat ≤ 2 → index.toNat < s.cfg.ncb →
    ∃ t, exec (.cbwr field index d) s = .next t ∧ { t with cb := s.cb } = marked s ∧
      (∀ a, a ≠ cbAddr index.toNat field.toNat → t.cb.read? a = s.cb.read? a) ∧
      ∀ i f, f ≤ 2 → t.cbRead i f = if i = index.toNat ∧ f = field.toNat then d else s.cbRead i f

/-- `LRWR` stores `D` in the launch-record field it numbers, cut to the field's width, and keeps the other ten fields (R181);
a field number above 10 raises `RANGE`. -/
def Obligations.LrwrWritesOneField : Prop :=
  (∀ (s : State) (field : BitVec 8) (d : BitVec 32), field.toNat ≤ 10 → ∃ t, exec (.lrwr field d) s = .next t ∧
    { t with lr := s.lr } = marked s ∧
    t.lr = {
      chan := if field = 0 then d.setWidth 4 else s.lr.chan
      note := if field = 1 then d.setWidth 7 else s.lr.note
      vel := if field = 2 then d.setWidth 7 else s.lr.vel
      vid := if field = 3 then d else s.lr.vid
      wt := if field = 4 then d.setWidth 16 else s.lr.wt
      cbbase := if field = 5 then d.setWidth 16 else s.lr.cbbase
      cbcnt := if field = 6 then d.setWidth 16 else s.lr.cbcnt
      excl := if field = 7 then d else s.lr.excl
      reltrig := if field = 8 then d.getLsbD 0 else s.lr.reltrig
      gofs := if field = 9 then d else s.lr.gofs
      grate := if field = 10 then d else s.lr.grate }) ∧
  ∀ (s : State) (field : BitVec 8) (d : BitVec 32), 10 < field.toNat → exec (.lrwr field d) s = .next (refused 1 s)

/-- `VSTART` of a valid record on a FREE slot initialises that slot (R182, R185): every field as R185 lists it, destinations
0 and 1 from the record's own velocity and key, the forced values they set, destinations 2 to 23 after that (R218, R219),
the LFO delays from the delay destinations (R255). No other slot changes, and of the registers at most `CBBAD` besides the
activity mark: set exactly if one of the two evaluations meets a malformed entry (R222). The model's own list `stale` starts
empty (log entry 5). -/
def Obligations.VstartInitialisesAFreeSlot : Prop :=
  ∀ (s : State) (slot : BitVec 8), s.run = true → Shaped s → RegistersInRange s → slot.toNat < s.cfg.nv →
    slotState (s.voice slot.toNat) = .free → WavetableOk s s.lr → BlockRangeOk s s.lr →
    ∃ (t : State) (w : Voice), exec (.vstart slot) s = .next t ∧ w = t.voice slot.toNat ∧
      OnlySlot s { t with err := s.err } slot.toNat ∧
      (malformedAtInit s s.lr → t.err = s.err ||| 0x10) ∧ (¬ malformedAtInit s s.lr → t.err = s.err) ∧
      w = initVoice s s.lr ∧
      w.act = true ∧ w.pend = { valid := false, launch := .zero } ∧
      w.ident = {
        chan := s.lr.chan
        note := s.lr.note
        vel := s.lr.vel
        vid := s.lr.vid
        wtidx := s.lr.wt
        cbbase := s.lr.cbbase
        cbcnt := s.lr.cbcnt
        excl := s.lr.excl
        reltrig := s.lr.reltrig } ∧
      w.flags = { on := true, sus := false, sost := false, silencing := false, final := false, first := true } ∧
      (w.forced.fvelv = true ↔ ∃ j < s.lr.cbcnt.toNat, (block s w j).dstn = 0) ∧
      (w.forced.fkeyv = true ↔ ∃ j < s.lr.cbcnt.toNat, (block s w j).dstn = 1) ∧
      (w.forced.fvel.toNat : Int) = (if w.forced.fvelv = true then max (0 : Int) (min 127 (w.dst[0].toInt / 65536)) else 0) ∧
      (w.forced.fkey.toNat : Int) = (if w.forced.fkeyv = true then max (0 : Int) (min 127 (w.dst[1].toInt / 65536)) else 0) ∧
      (∀ k : Fin 24, w.dst[k].toInt =
        if k.val < 2 then resolved s { w with forced := { fvelv := false, fkeyv := false, fvel := 0, fkey := 0 } } k.val
        else resolved s w k.val) ∧
      w.pp = 0 ∧ w.shut = 32768 ∧ w.eg0 = { stage := .idle, level := 0 } ∧ w.eg1 = { stage := .idle, level := 0 } ∧
      w.lfo0.ph = 0 ∧ w.lfo0.out = 16384 ∧ w.lfo1.ph = 0 ∧ w.lfo1.out = 16384 ∧
      (w.lfo0.dcnt.toNat : Int) = max (0 : Int) (min 65535 (w.dst[13].toInt / 65536)) ∧
      (w.lfo1.dcnt.toNat : Int) = max (0 : Int) (min 65535 (w.dst[15].toInt / 65536)) ∧
      w.gofs = s.lr.gofs ∧ w.grate = s.lr.grate ∧ w.desc = s.descAt s.lr.wt.toNat ∧
      w.pos = {
        srci := 0
        frac := 0
        dir := .up
        loopen := decide ((s.descAt s.lr.wt.toNat).lmode ≠ .off)
        ended := false } ∧
      w.audio =
        { tnew := 0, told := 0, anew := 0, aold := 0, gl := 32768, gr := 32768, mono := true, rv := 0, ch := 0 } ∧
      w.stale = []

/-- `VSTART` of a valid record on an ACTIVE slot queues a copy of `LR` and silences the sounding voice, which is not
reinitialised (R186). Its checks after the slot number come in their order, each ending the command with its bit alone: a
pending record `VBUSY`, a bad wavetable `WTBAD`, a bad block range `CBBAD` (R182, R184, R353, R360). -/
def Obligations.VstartTakesOverOrRefuses : Prop :=
  (∀ (s : State) (slot : BitVec 8), s.run = true → Shaped s → slot.toNat < s.cfg.nv →
    slotState (s.voice slot.toNat) = .active → WavetableOk s s.lr → BlockRangeOk s s.lr →
    ∃ t, exec (.vstart slot) s = .next t ∧ OnlySlot s t slot.toNat ∧
      slotState (t.voice slot.toNat) = .releasingPending ∧
      t.voice slot.toNat = { silenced (s.voice slot.toNat) with pend := { valid := true, launch := s.lr } }) ∧
  ∀ (s : State) (slot : BitVec 8), s.run = true → slot.toNat < s.cfg.nv →
    ((s.voice slot.toNat).pend.valid = true → exec (.vstart slot) s = .next (refused 2 s)) ∧
    ((s.voice slot.toNat).pend.valid = false → ¬ WavetableOk s s.lr → exec (.vstart slot) s = .next (refused 3 s)) ∧
    ((s.voice slot.toNat).pend.valid = false → WavetableOk s s.lr → ¬ BlockRangeOk s s.lr →
      exec (.vstart slot) s = .next (refused 4 s))

/-- `VOFF` releases an active slot (mode 0) or marks it sustained (mode 1) or sostenuto-held (mode 2) (R188, R190); `VSIL`
silences an active slot (R189, R191); `VCANCEL` drops a slot's pending record and leaves the sounding voice alone
(R193); `VGLIDE` gives an active slot `LR`'s note, glide offset and rate (R194); `PPWR` writes an active slot's pressure
(R195). Each touches that slot only, and all but `VCANCEL` do nothing to an inactive one. -/
def Obligations.SlotCommandsEditOneSlot : Prop :=
  ∀ (s : State) (slot : BitVec 8) (d : BitVec 32), s.run = true → Shaped s → slot.toNat < s.cfg.nv →
    (d.toNat % 4 ≠ 3 → ∃ t, exec (.voff slot d) s = .next t ∧ OnlySlot s t slot.toNat ∧ t.voice slot.toNat =
      if (s.voice slot.toNat).act = true then
        if d.toNat % 4 = 0 then released (s.voice slot.toNat)
        else { s.voice slot.toNat with flags := { (s.voice slot.toNat).flags with
          sus := (s.voice slot.toNat).flags.sus || decide (d.toNat % 4 = 1)
          sost := (s.voice slot.toNat).flags.sost || decide (d.toNat % 4 = 2) } }
      else s.voice slot.toNat) ∧
    (∃ t, exec (.vsil slot) s = .next t ∧ OnlySlot s t slot.toNat ∧ t.voice slot.toNat =
      if (s.voice slot.toNat).act = true then silenced (s.voice slot.toNat) else s.voice slot.toNat) ∧
    (∃ t, exec (.vcancel slot) s = .next t ∧ OnlySlot s t slot.toNat ∧
      t.voice slot.toNat = { s.voice slot.toNat with pend := { valid := false, launch := .zero } }) ∧
    (∃ t, exec (.vglide slot) s = .next t ∧ OnlySlot s t slot.toNat ∧ t.voice slot.toNat =
      if (s.voice slot.toNat).act = true then
        { s.voice slot.toNat with
          ident := { (s.voice slot.toNat).ident with note := s.lr.note }
          gofs := s.lr.gofs
          grate := s.lr.grate }
      else s.voice slot.toNat) ∧
    ∃ t, exec (.ppwr slot d) s = .next t ∧ OnlySlot s t slot.toNat ∧ t.voice slot.toNat =
      if (s.voice slot.toNat).act = true then { s.voice slot.toNat with pp := d.setWidth 7 } else s.voice slot.toNat

/-- `RDV` answers the word of R199's table, envelope stages by R240's numbers, and changes nothing but `RSP`; a slot or
field out of range raises `RANGE` and answers 0. -/
def Obligations.RdvAnswersItsTable : Prop :=
  (∀ (s : State) (slot : BitVec 8) (field : BitVec 16), slot.toNat < s.cfg.nv →
    field.toNat ≤ 9 ∨ (0x40 ≤ field.toNat ∧ field.toNat ≤ 0x57) →
    ∃ (r : BitVec 32) (v : Voice), v = s.voice slot.toNat ∧ exec (.rdv slot field) s = .next { s with rsp := r } ∧
    (field = 0 → r.toNat = v.act.toNat + 2 * v.pend.valid.toNat + 4 * v.flags.on.toNat + 8 * v.flags.sus.toNat +
      16 * v.flags.sost.toNat + 32 * (decide (v.gofs ≠ 0)).toNat + 64 * v.flags.silencing.toNat +
      128 * v.ident.reltrig.toNat + 256 * v.flags.final.toNat + 512 * v.flags.first.toNat + 1024 * v.pos.ended.toNat +
      4096 * v.ident.chan.toNat + 65536 * v.ident.note.toNat + 16777216 * v.ident.vel.toNat) ∧
    (field = 1 → r = v.ident.vid) ∧ (field = 2 → r = v.ident.excl) ∧
    (field = 3 → r.toNat = v.ident.wtidx.toNat + 65536 * v.ident.cbbase.toNat) ∧
    (field = 4 → r.toNat = v.eg0.level.toNat + 16777216 * stageNumber v.eg0.stage) ∧
    (field = 5 → r.toNat = v.eg1.level.toNat + 16777216 * stageNumber v.eg1.stage) ∧
    (field = 6 → r.toNat = v.lfo0.out.toNat + 65536 * v.lfo0.dcnt.toNat) ∧
    (field = 7 → r.toNat = v.lfo1.out.toNat + 65536 * v.lfo1.dcnt.toNat) ∧
    (field = 8 → r.toNat = v.audio.anew.toNat + 65536 * v.shut.toNat) ∧ (field = 9 → r = v.audio.tnew) ∧
    ∀ k : Fin 24, field.toNat = 0x40 + k.val → r.toInt = max (-2147483648) (min 2147483647 v.dst[k].toInt)) ∧
  ∀ (s : State) (slot : BitVec 8) (field : BitVec 16),
    s.cfg.nv ≤ slot.toNat ∨ (9 < field.toNat ∧ field.toNat < 0x40) ∨ 0x57 < field.toNat →
    exec (.rdv slot field) s = .next { s with err := s.err ||| 2, rsp := 0 }

/-! ## Rules of the whole machine -/

/-- An implemented bit of `ERR` that is set stays set unless `Reset` comes or an `ERRCLR` names it, and a bit becomes set only
by its own cause (R350 to R358): `ILLOP` by an undefined opcode, `RANGE` by an operand out of range, `VBUSY`, `WTBAD` and
`CBBAD` by a `VSTART` or a promotion that fails that check, `CBBAD` also by a malformed entry that is evaluated, `WDOG` by the
watchdog, `VDONE` by a voice that ends in the tick, `IDLE` by the tick that goes idle. -/
def Obligations.ErrorBitsFollowTheirCauses : Prop :=
  ∀ (s t : State) (n : Nat), n ≤ 5 ∨ n = 8 ∨ n = 9 → step s = .next t →
    (s.err.getLsbD n = true → t.err.getLsbD n = false →
      s.sched.head? = some .reset ∨ ∃ mask, nextCommand s = some (.errclr mask) ∧ mask.getLsbD n = true) ∧
    (s.err.getLsbD n = false → t.err.getLsbD n = true →
      (n = 0 → ∃ w, s.sched.head? = some (.cmd w) ∧ undefinedOp (w.toNat / 2 ^ 56)) ∧
      (n = 1 → ∃ i, nextCommand s = some i ∧ outOfRange s i ∧ (inClosedSet i = true → s.run = true)) ∧
      (n = 2 → ∃ slot, nextCommand s = some (.vstart slot) ∧ s.run = true ∧ slot.toNat < s.cfg.nv ∧
        (s.voice slot.toNat).pend.valid = true) ∧
      (n = 3 → (∃ slot, nextCommand s = some (.vstart slot) ∧ s.run = true ∧ slot.toNat < s.cfg.nv ∧
          (s.voice slot.toNat).pend.valid = false ∧ ¬ WavetableOk s s.lr) ∨
        TickDue s ∧ ¬ WatchdogDue s ∧
          ∃ v < s.voices.length, slotState (s.voice v) = .freeQueued ∧ ¬ WavetableOk s (s.voice v).pend.launch) ∧
      (n = 4 → CbbadCause s) ∧
      (n = 5 → TickDue s ∧ WatchdogDue s) ∧
      (n = 8 → TickDue s ∧ ∃ v < s.voices.length, ((s.voice v).act = true ∨ PromotedBy s (s.voice v)) ∧
        (t.voice v).act = false ∧ ((t.voice v).flags.final = true ∨ (t.voice v).pos.ended = true)) ∧
      (n = 9 → TickDue s ∧ s.cmdseen = false ∧ (∀ b ∈ t.outbuf, b = 0) ∧ t.idle = true ∧ t.silcnt = 5))

/-- Which transition writes which state: outside `Reset`, every register and memory but `ERR` (whose bits have a statement of
their own) changes only by the commands and the transitions the spec names as its writers (R22 to R34, R37, R47, R48, R71 to
R73). The configuration never changes. -/
def Obligations.StateIsWrittenByItsWritersOnly : Prop :=
  ∀ s t : State, step s = .next t → t.cfg = s.cfg ∧ (s.sched.head? ≠ some .reset →
    (t.wave ≠ s.wave → ∃ d, nextCommand s = some (.wwr d)) ∧
    (t.wt ≠ s.wt → ∃ f i d, nextCommand s = some (.wtwr f i d)) ∧
    (t.cb ≠ s.cb → ∃ f i d, nextCommand s = some (.cbwr f i d)) ∧
    (t.wptr ≠ s.wptr → (∃ a, nextCommand s = some (.wptr a)) ∨ ∃ d, nextCommand s = some (.wwr d)) ∧
    (t.lr ≠ s.lr → ∃ f d, nextCommand s = some (.lrwr f d)) ∧
    (t.rsp ≠ s.rsp → (∃ r, nextCommand s = some (.rdg r)) ∨ ∃ v f, nextCommand s = some (.rdv v f)) ∧
    (t.ien ≠ s.ien → ∃ d, nextCommand s = some (.ienset d)) ∧
    (t.mvol ≠ s.mvol ∨ t.mbal ≠ s.mbal ∨ t.mfine ≠ s.mfine ∨ t.mcoarse ≠ s.mcoarse →
      (∃ r d, nextCommand s = some (.mset r d)) ∨ nextCommand s = some .close) ∧
    (t.chans ≠ s.chans → nextCommand s = some .close ∨ (∃ c n d, nextCommand s = some (.ccwr c n d)) ∨
      (∃ c d, nextCommand s = some (.pbwr c d)) ∨ (∃ c d, nextCommand s = some (.cpwr c d)) ∨
      (∃ c j d, nextCommand s = some (.rpnwr c j d)) ∨ ∃ c j d, nextCommand s = some (.nrpnwr c j d)) ∧
    (t.buses ≠ s.buses ∨ t.fxst ≠ s.fxst ∨ t.tickcnt ≠ s.tickcnt ∨ t.gprevl ≠ s.gprevl ∨ t.gprevr ≠ s.gprevr →
      TickDue s ∨ nextCommand s = some .close) ∧
    (t.run ≠ s.run → nextCommand s = some (if s.run then .close else .open_)) ∧
    (t.asen ≠ s.asen →
      (∃ d, nextCommand s = some (.asense d)) ∨ nextCommand s = some .close ∨ (TickDue s ∧ WatchdogDue s)) ∧
    (t.cmdseen ≠ s.cmdseen ∨ t.ascnt ≠ s.ascnt ∨ t.idle ≠ s.idle →
      TickDue s ∨ ∃ i, nextCommand s = some i ∧ i ≠ .nop ∧ isRead i = false) ∧
    (t.silcnt ≠ s.silcnt → TickDue s ∨ nextCommand s = some .open_ ∨ nextCommand s = some .close) ∧
    (t.outbuf ≠ s.outbuf → nextCommand s = some .close ∨
      (s.sched.head? = some .refill ∧ s.run = true ∧ s.outrd = 4 * s.cfg.chunk)) ∧
    (t.outrd ≠ s.outrd → nextCommand s = some .open_ ∨ nextCommand s = some .close ∨
      (s.run = true ∧ ((s.sched.head? = some .refill ∧ s.outrd = 4 * s.cfg.chunk) ∨
        (s.sched.head? = some .pullByte ∧ s.outrd < 4 * s.cfg.chunk)))) ∧
    (t.voices ≠ s.voices → TickDue s ∨ nextCommand s = some .close ∨ (∃ d, nextCommand s = some (.wwr d)) ∨
      (s.run = true ∧ ((∃ c d, nextCommand s = some (.choff c d)) ∨ (∃ c d, nextCommand s = some (.chrel c d)) ∨
        (∃ v, nextCommand s = some (.vstart v)) ∨ (∃ v d, nextCommand s = some (.voff v d)) ∨
        (∃ v, nextCommand s = some (.vsil v)) ∨ (∃ v, nextCommand s = some (.vcancel v)) ∨
        (∃ v, nextCommand s = some (.vglide v)) ∨ ∃ v d, nextCommand s = some (.ppwr v d)))))

/-- The transitions of R180's table, and nothing else, change the state of a slot. In one tick a queued note can start and
end, and the watchdog's `ChannelOff` can come before a voice's end. -/
def Obligations.SlotStatesFollowTheTable : Prop :=
  ∀ (s t : State) (v : Nat), step s = .next t → slotState (t.voice v) ≠ slotState (s.voice v) →
    (s.sched.head? = some .reset ∧ slotState (t.voice v) = .free) ∨
    (nextCommand s = some .close ∧ s.run = true ∧ slotState (t.voice v) = .free) ∨
    (∃ slot, nextCommand s = some (.vstart slot) ∧ slot.toNat = v ∧ s.run = true ∧
      ((slotState (s.voice v) = .free ∧ slotState (t.voice v) = .active) ∨
       (slotState (s.voice v) = .active ∧ slotState (t.voice v) = .releasingPending))) ∨
    (((∃ slot, nextCommand s = some (.vcancel slot) ∧ slot.toNat = v) ∨
      (∃ chan d, nextCommand s = some (.choff chan d) ∧ (s.voice v).pend.launch.chan = chan.setWidth 4)) ∧ s.run = true ∧
      ((slotState (s.voice v) = .releasingPending ∧ slotState (t.voice v) = .active) ∨
       (slotState (s.voice v) = .freeQueued ∧ slotState (t.voice v) = .free))) ∨
    (TickDue s ∧
      ((slotState (s.voice v) = .active ∧ slotState (t.voice v) = .free) ∨
       (slotState (s.voice v) = .releasingPending ∧ slotState (t.voice v) = .freeQueued ∧ ¬ WatchdogDue s) ∨
       (slotState (s.voice v) = .releasingPending ∧ slotState (t.voice v) ∈ [SlotState.active, .free] ∧ WatchdogDue s) ∨
       (slotState (s.voice v) = .freeQueued ∧ slotState (t.voice v) = .active ∧ ¬ WatchdogDue s) ∨
       (slotState (s.voice v) = .freeQueued ∧ slotState (t.voice v) = .free)))

/-- No envelope of a sounding voice goes back to an earlier stage, and once released its level does not rise: "never
re-trigger without a new note-on" (R240, R248). -/
def Obligations.EnvelopesNeverRetrigger : Prop :=
  ∀ (s t : State) (v : Nat), step s = .next t → (s.voice v).act = true → (t.voice v).act = true →
    stageNumber (s.voice v).eg0.stage ≤ stageNumber (t.voice v).eg0.stage ∧
    stageNumber (s.voice v).eg1.stage ≤ stageNumber (t.voice v).eg1.stage ∧
    ((s.voice v).eg0.stage = .release → (t.voice v).eg0.level ≤ (s.voice v).eg0.level) ∧
    ((s.voice v).eg1.stage = .release → (t.voice v).eg1.level ≤ (s.voice v).eg1.level)

/-- The output port: an idle `Refill` fills the buffer with zeros and changes nothing else (R81, R83); `PullByte` hands SINK
the next byte (R82); a disabled one, and a step with nothing scheduled, changes nothing but the schedule (log entry 2). -/
def Obligations.OutputPortTransitions : Prop :=
  (∀ (s : State) (rest : List Event), s.sched = .refill :: rest → s.run = true → s.outrd = 4 * s.cfg.chunk → s.idle = true →
    step s = .next { s with sched := rest, outbuf := List.replicate (4 * s.cfg.chunk) 0, outrd := 0 }) ∧
  (∀ (s : State) (rest : List Event), s.sched = .refill :: rest → s.run = false ∨ s.outrd ≠ 4 * s.cfg.chunk →
    step s = .next { s with sched := rest }) ∧
  (∀ (s : State) (rest : List Event), Shaped s → s.sched = .pullByte :: rest → s.run = true → s.outrd < 4 * s.cfg.chunk →
    ∃ b, s.outbuf[s.outrd]? = some b ∧
      step s = .next { s with sched := rest, sinkGot := s.sinkGot ++ [b], outrd := s.outrd + 1 }) ∧
  (∀ (s : State) (rest : List Event), s.sched = .pullByte :: rest → s.run = false ∨ 4 * s.cfg.chunk ≤ s.outrd →
    step s = .next { s with sched := rest }) ∧
  ∀ s : State, s.sched = [] → step s = .next s

/-- An open machine never stops producing bytes when pulled, whatever else it holds: a request, that is a `Refill` where the
buffer is empty and a `PullByte`, gives SINK one more byte (R82, R385). -/
def Obligations.OpenMachineDeliversBytes : Prop :=
  ∀ (s : State) (rest : List Event), s.run = true → 1 ≤ s.cfg.chunk → s.outrd ≤ 4 * s.cfg.chunk →
    s.sched = .refill :: .pullByte :: rest →
    ∃ (t : State) (b : Byte), Host.Core.run core 2 s = .next t ∧ t.sinkGot = s.sinkGot ++ [b] ∧ t.sched = rest ∧ t.run = true

/-- `Reset` gives every element of state R51's value, whatever the machine was doing; of the memories nothing is known after
it (R78), and the configuration, the schedule and what SINK has got are not the machine's to reset (log entries 1, 2, 6).
The state after reset is such a state, in the configuration REF (R15). -/
def Obligations.ResetGivesTheTabledValues : Prop :=
  (∀ (s : State) (rest : List Event), s.sched = .reset :: rest → ∃ t, step s = .next t ∧ DynamicAtReset t ∧
    t.err = 0 ∧ t.ien = 0 ∧ t.wptr = 0 ∧ t.rsp = 0 ∧ t.lr = LaunchRec.zero ∧ t.irq = false ∧
    t.wave = [] ∧ t.wt = [] ∧ t.cb = [] ∧ t.cfg = s.cfg ∧ t.sched = rest ∧ t.sinkGot = s.sinkGot) ∧
  DynamicAtReset State.reset ∧ State.reset.err = 0 ∧ State.reset.ien = 0 ∧ State.reset.wptr = 0 ∧ State.reset.rsp = 0 ∧
  State.reset.lr = LaunchRec.zero ∧ State.reset.irq = false ∧ State.reset.cfg = Config.ref ∧ Config.ref.wf = true ∧
  Config.tcfg.wf = true

/-! ## The tick -/

/-- A due tick is one step, with these effects on the machine's registers: the counters (R302, R337), the watchdog's `ASEN`
and `WDOG` (R302, R356), and no effect at all on the configuration, `RUN`, the master registers, the channel files, the
tables, `WPTR`, `LR`, `RSP`, `IEN`, the command-checked error bits, or the bytes SINK has. -/
def Obligations.TickKeepsItsBooks : Prop :=
  ∀ s : State, TickDue s → ∃ t, step s = .next t ∧ t = tick { s with sched := s.sched.tail } ∧
    t.tickcnt = s.tickcnt + 1 ∧ t.cmdseen = false ∧ t.outrd = 0 ∧ t.outbuf.length = 4 * s.cfg.chunk ∧
    t.ascnt.toNat = min (s.ascnt.toNat + 1) 65535 ∧
    (WatchdogDue s → t.asen = false ∧ t.err.getLsbD 5 = true) ∧
    (¬ WatchdogDue s → t.asen = s.asen ∧ t.err.getLsbD 5 = s.err.getLsbD 5) ∧
    t.voices.length = s.voices.length ∧ t.cfg = s.cfg ∧ t.run = s.run ∧ t.mvol = s.mvol ∧ t.mbal = s.mbal ∧
    t.mfine = s.mfine ∧ t.mcoarse = s.mcoarse ∧ t.chans = s.chans ∧ t.wave = s.wave ∧ t.wt = s.wt ∧ t.cb = s.cb ∧
    t.wptr = s.wptr ∧ t.lr = s.lr ∧ t.rsp = s.rsp ∧ t.ien = s.ien ∧ t.sched = s.sched.tail ∧ t.sinkGot = s.sinkGot ∧
    t.err.getLsbD 0 = s.err.getLsbD 0 ∧ t.err.getLsbD 1 = s.err.getLsbD 1 ∧ t.err.getLsbD 2 = s.err.getLsbD 2

/-- When the watchdog fires every voice is silenced and every pending record is dropped, not started (R302, R303). -/
def Obligations.WatchdogForcesAllSoundOff : Prop :=
  ∀ s t : State, TickDue s → WatchdogDue s → step s = .next t → ∀ v < s.voices.length,
    (t.voice v).pend.valid = false ∧
    ((s.voice v).act = false → (t.voice v).act = false) ∧
    ((s.voice v).act = true → (t.voice v).flags.silencing = true ∧ (t.voice v).flags.on = false)

/-- Silence is judged on the chunk that goes out: a silent tick without a command counts `SILCNT` up to 5, and at 5 the
machine goes idle and raises `IDLE`; any other tick clears `SILCNT` (R335, R358). -/
def Obligations.SilenceDetection : Prop :=
  ∀ s t : State, TickDue s → step s = .next t →
    ((∀ b ∈ t.outbuf, b = 0) ∧ s.cmdseen = false →
      t.silcnt.toNat = min (s.silcnt.toNat + 1) 5 ∧ (t.idle = true ↔ t.silcnt = 5) ∧
      (t.idle = true → t.err.getLsbD 9 = true) ∧ (t.idle = false → t.err.getLsbD 9 = s.err.getLsbD 9)) ∧
    (¬ ((∀ b ∈ t.outbuf, b = 0) ∧ s.cmdseen = false) →
      t.silcnt = 0 ∧ t.idle = false ∧ t.err.getLsbD 9 = s.err.getLsbD 9)

/-- The output of a tick: the processed left and right buses through a linear ramp from the previous master gains to the new
ones, saturated to 16 bits, packed left before right and low byte first; the squared master volume and the balance give the
new gains (R328, R333, R334, R80, R10). -/
def Obligations.OutputIsTheBusesThroughTheMasterGains : Prop :=
  ∀ s t : State, TickDue s → RegistersInRange s → step s = .next t →
    t.gprevl.toNat = s.mvol.toNat * s.mvol.toNat / 32768 * min 32768 (2 * (32768 - s.mbal.toNat)) / 32768 ∧
    t.gprevr.toNat = s.mvol.toNat * s.mvol.toNat / 32768 * min 32768 (2 * s.mbal.toNat) / 32768 ∧
    t.buses.l.length = s.cfg.chunk ∧ t.buses.r.length = s.cfg.chunk ∧
    ∀ j < s.cfg.chunk, ∃ (gl gr : Nat) (l r : Int),
      gl = (s.gprevl.toNat * (s.cfg.chunk - 1 - j) + t.gprevl.toNat * (j + 1)) / s.cfg.chunk ∧
      gr = (s.gprevr.toNat * (s.cfg.chunk - 1 - j) + t.gprevr.toNat * (j + 1)) / s.cfg.chunk ∧
      l = max (-32768) (min 32767 ((t.buses.l.getD j 0).toInt * gl / 32768)) ∧
      r = max (-32768) (min 32767 ((t.buses.r.getD j 0).toInt * gr / 32768)) ∧
      t.outbuf[4 * j]? = some (BitVec.ofInt 8 l) ∧ t.outbuf[4 * j + 1]? = some (BitVec.ofInt 8 (l / 256)) ∧
      t.outbuf[4 * j + 2]? = some (BitVec.ofInt 8 r) ∧ t.outbuf[4 * j + 3]? = some (BitVec.ofInt 8 (r / 256))

/-- A queued note is validated again in step 3 of the next tick: if the record is valid its voice starts, as `Init` makes
it, and runs its control logic and its audio logic in that tick, like a voice that was active; else the record is dropped,
the slot is FREE, and the failing bit is raised (R187, R303, R354, R355). -/
def Obligations.QueuedNotesArePromoted : Prop :=
  ∀ (s t : State) (v : Nat) (r : LaunchRec), TickDue s → ¬ WatchdogDue s → step s = .next t → v < s.voices.length →
    slotState (s.voice v) = .freeQueued → r = (s.voice v).pend.launch →
    (WavetableOk s r → BlockRangeOk s r → TickedFrom s (initVoice s r) (t.voice v) ∧
      (t.voice v).pend = { valid := false, launch := .zero } ∧ (t.voice v).flags.first = false ∧
      (t.voice v).flags.on = true ∧ (t.voice v).desc = s.descAt r.wt.toNat ∧
      (t.voice v).ident = {
        chan := r.chan
        note := r.note
        vel := r.vel
        vid := r.vid
        wtidx := r.wt
        cbbase := r.cbbase
        cbcnt := r.cbcnt
        excl := r.excl
        reltrig := r.reltrig } ∧
      (t.voice v).act = !((t.voice v).flags.final || (t.voice v).pos.ended) ∧
      ((t.voice v).act = false → t.err.getLsbD 8 = true)) ∧
    (¬ WavetableOk s r → t.voice v = { s.voice v with pend := { valid := false, launch := .zero } } ∧
      t.err.getLsbD 3 = true) ∧
    (WavetableOk s r → ¬ BlockRangeOk s r →
      t.voice v = { s.voice v with pend := { valid := false, launch := .zero } } ∧ t.err.getLsbD 4 = true)

/-- A silenced voice is over after at most ceil(32768 / `SHUT_STEP`) ticks, whatever its envelopes do (R180, R191, R314,
R315). -/
def Obligations.SilencedVoicesEnd : Prop :=
  ∀ (s : State) (v : Nat), v < s.voices.length → 1 ≤ s.cfg.shutStep → (s.voice v).act = true →
    (s.voice v).flags.silencing = true → (s.voice v).shut.toNat ≤ 32768 →
    ∃ n ≤ (32768 + s.cfg.shutStep - 1) / s.cfg.shutStep, ((tick^[n] s).voice v).act = false

/-- The control logic of an active voice, R310 to R319 in order: glide, destinations, LFOs, envelopes, shutdown ramp, last
tick, pitch, amplitude, pan and sends, first tick; every other field of the voice is unchanged. -/
def Obligations.ControlLogicFollowsItsRules : Prop :=
  ∀ (s : State) (v c : Voice), RegistersInRange s → VoiceInRange v → c = controlLogic s v →
    c.gofs.toInt = (if 0 < v.gofs.toInt then max 0 (v.gofs.toInt - v.grate.toNat)
      else if v.gofs.toInt < 0 then min 0 (v.gofs.toInt + v.grate.toNat) else 0) ∧
    (∀ k : Fin 24, c.dst[k].toInt = if k.val < 2 then v.dst[k].toInt else resolved s v k.val) ∧
    c.lfo0 = lfoAdvance s.cfg v.lfo0 c.dst[12].toInt ∧ c.lfo1 = lfoAdvance s.cfg v.lfo1 c.dst[14].toInt ∧
    c.eg0 = egAdvance v.eg0 c.dst[2].toInt c.dst[3].toInt c.dst[4].toInt c.dst[5].toInt c.dst[6].toInt ∧
    c.eg1 = egAdvance v.eg1 c.dst[7].toInt c.dst[8].toInt c.dst[9].toInt c.dst[10].toInt c.dst[11].toInt ∧
    c.shut.toNat = (if v.flags.silencing = true then v.shut.toNat - s.cfg.shutStep else v.shut.toNat) ∧
    (c.flags.final = true ↔ c.eg0.stage = .done ∨ (v.flags.silencing = true ∧ c.shut = 0)) ∧
    c.audio.tnew.toNat = min (exp2C (max (-943718400) (min 629145600 (v.desc.corr.toInt + c.dst[16].toInt + c.gofs.toInt))) *
      (v.desc.rate.toNat * 32768 / s.cfg.fs) / 32768) 2147483647 ∧
    c.audio.anew.toNat = (if c.flags.final = true then 0 else cbToAmp (min c.dst[17].toInt 0) * c.shut.toNat / 32768) ∧
    (∃ p b : Int, p = max (0 : Int) (min 32768 (16384 + c.dst[18].toInt / 4)) ∧
      b = max (0 : Int) (min 32768 (16384 + c.dst[19].toInt / 4)) ∧
      (c.audio.gl.toNat : Int) = min 32768 (2 * (32768 - p)) * min 32768 (2 * (32768 - b)) / 32768 ∧
      (c.audio.gr.toNat : Int) = min 32768 (2 * p) * min 32768 (2 * b) / 32768) ∧
    (c.audio.mono = true ↔ c.audio.gl = 32768 ∧ c.audio.gr = 32768) ∧
    (c.audio.rv.toNat : Int) = max (0 : Int) (min 32768 (c.dst[20].toInt / 2)) ∧
    (c.audio.ch.toNat : Int) = max (0 : Int) (min 32768 (c.dst[21].toInt / 2)) ∧
    c.audio.told = (if v.flags.first = true then c.audio.tnew else v.audio.told) ∧
    c.audio.aold = (if v.flags.first = true then c.audio.anew else v.audio.aold) ∧
    { c with
      gofs := v.gofs
      dst := v.dst
      lfo0 := v.lfo0
      lfo1 := v.lfo1
      eg0 := v.eg0
      eg1 := v.eg1
      shut := v.shut
      flags := { c.flags with final := v.flags.final }
      audio := v.audio } = v

/-- In a tick without the watchdog each sounding voice runs its control logic on the state at the start of the tick and then
its audio logic, each once, whatever the other slots do; an inactive slot with no record is not touched (R300, R320, R325).
The list `stale` of rewritten samples is the model's own (log entry 5): it ends with the voice. -/
def Obligations.TickRunsEachVoiceOnce : Prop :=
  ∀ (s t : State) (v : Nat), TickDue s → ¬ WatchdogDue s → step s = .next t → v < s.voices.length →
    (slotState (s.voice v) = .free → t.voice v = s.voice v) ∧
    ((s.voice v).act = true → TickedFrom s (s.voice v) (t.voice v) ∧
      ((t.voice v).act = false → t.err.getLsbD 8 = true))

/-- The audio logic of a voice whose view has not been rewritten, frame by frame: sample, amplitude ramp, dry routing, sends,
then the position by the step ramp (R320 to R324, R278). -/
def Obligations.AudioLogicRendersFrameByFrame : Prop :=
  ∀ (s : State) (v : Voice) (ctr : Nat), v.stale = [] → ∃ p : Nat → Pos, p 0 = v.pos ∧
    (∀ j, p (j + 1) = advance v.desc (p j)
      ((v.audio.told.toNat * (s.cfg.chunk - 1 - j) + v.audio.tnew.toNat * (j + 1)) / s.cfg.chunk)) ∧
    (renderVoice s v ctr).pos = p s.cfg.chunk ∧ (renderVoice s v ctr).frames.length = s.cfg.chunk ∧
    ∀ j < s.cfg.chunk, ∃ (a : Nat) (x y : Int),
      a = (v.audio.aold.toNat * (s.cfg.chunk - 1 - j) + v.audio.anew.toNat * (j + 1)) / s.cfg.chunk ∧
      x = (interp s [] v.desc (p j) 0).1 ∧ y = x * a / 32768 ∧
      (renderVoice s v ctr).frames[j]? = some {
        l := if v.audio.mono = true then 0 else y * v.audio.gl.toNat / 32768
        r := if v.audio.mono = true then 0 else y * v.audio.gr.toNat / 32768
        m := if v.audio.mono = true then y else 0
        e1 := y * v.audio.rv.toNat / 32768
        e2 := y * v.audio.ch.toNat / 32768 }

/-- Mixing is exact and does not depend on the order of the slots: each live bus gains exactly the sum of the voices' frames,
no 32-bit accumulator overflows, and permuting the slots leaves the same buses (R321, R47, R86). It is said of voices whose
views have not been rewritten: a rewritten sample is a free choice per read (log entry 5). -/
def Obligations.MixingIsExactAndOrderFree : Prop :=
  ∀ s : State, NoHazard s → Shaped s → VoicesInRange s → s.cfg.nv ≤ 256 →
    (∀ x ∈ s.buses.l ++ s.buses.r ++ s.buses.m ++ s.buses.e1 ++ s.buses.e2, -268435456 ≤ x.toInt ∧ x.toInt ≤ 268435456) →
    (∀ j < s.cfg.chunk, ∃ f : (FrameAdd → Int) → Int,
      (∀ g, f g = ((s.voices.filter Voice.act).map fun v => ((renderVoice s v 0).frames.map g).getD j 0).sum) ∧
      ((audioAll s).buses.l.getD j 0).toInt = (s.buses.l.getD j 0).toInt + f FrameAdd.l ∧
      ((audioAll s).buses.r.getD j 0).toInt = (s.buses.r.getD j 0).toInt + f FrameAdd.r ∧
      ((audioAll s).buses.m.getD j 0).toInt = (s.buses.m.getD j 0).toInt + f FrameAdd.m ∧
      ((audioAll s).buses.e1.getD j 0).toInt = (s.buses.e1.getD j 0).toInt + f FrameAdd.e1 ∧
      ((audioAll s).buses.e2.getD j 0).toInt = (s.buses.e2.getD j 0).toInt + f FrameAdd.e2) ∧
    ∀ vs : List Voice, vs.Perm s.voices → (audioAll { s with voices := vs }).buses = (audioAll s).buses

/-- The buses through a tick (R301, R321 to R323, R326, R327, R332): each live bus starts as its delay bus and gains the
exact sum of what the voices render in this tick; M is folded into L and R; the effect unit gets its own state after its
control logic and the buses L, R, E1, E2, and its answer, held to R330's contract, is what the tick leaves in `FXST`, L, R
and the delay buses; E1 and E2 keep their values. It is said of voices whose views have not been rewritten (log entry 5); an
answer that breaks the contract is not described (log entry 8). With every slot FREE and the null unit the delay buses
become the live buses, M is folded in, and nothing is left for the next tick (R331). -/
def Obligations.TickCarriesTheBuses : Prop :=
  (∀ s t : State, TickDue s → Shaped s → NoHazard s → RegistersInRange s → VoicesInRange s → DelaysBounded s →
    s.cfg.nv ≤ 256 → step s = .next t →
    ∃ (l r e1 e2 : List (BitVec 32)) (o : FxOut),
      (l.length = s.cfg.chunk ∧ r.length = s.cfg.chunk ∧ e1.length = s.cfg.chunk ∧ e2.length = s.cfg.chunk) ∧
      (∀ j < s.cfg.chunk,
        (l.getD j 0).toInt = (s.buses.dl.getD j 0).toInt + mixed s FrameAdd.l j +
          ((s.buses.dm.getD j 0).toInt + mixed s FrameAdd.m j) ∧
        (r.getD j 0).toInt = (s.buses.dr.getD j 0).toInt + mixed s FrameAdd.r j +
          ((s.buses.dm.getD j 0).toInt + mixed s FrameAdd.m j) ∧
        (e1.getD j 0).toInt = (s.buses.de1.getD j 0).toInt + mixed s FrameAdd.e1 j ∧
        (e2.getD j 0).toInt = (s.buses.de2.getD j 0).toInt + mixed s FrameAdd.e2 j) ∧
      FxContract s.cfg.chunk o ∧
      (∀ answer, answer = fxAnswer s.cfg (fxControlled s.cfg s.fxst) l r e1 e2 → FxContract s.cfg.chunk answer →
        o = answer) ∧
      t.fxst = o.st ∧
      t.buses = {
        l := o.l
        r := o.r
        m := List.replicate s.cfg.chunk 0
        e1 := e1
        e2 := e2
        dl := o.dl
        dr := o.dr
        dm := o.dm
        de1 := o.de1
        de2 := o.de2 }) ∧
  ∀ s t : State, TickDue s → Shaped s → s.cfg.fx = .null → (∀ v ∈ s.voices, slotState v = .free) → step s = .next t →
    t.voices = s.voices ∧ t.fxst = s.fxst ∧
    t.buses.l = List.zipWith (· + ·) s.buses.dl s.buses.dm ∧ t.buses.r = List.zipWith (· + ·) s.buses.dr s.buses.dm ∧
    t.buses.m = List.replicate s.cfg.chunk 0 ∧ t.buses.e1 = s.buses.de1 ∧ t.buses.e2 = s.buses.de2 ∧
    (∀ b ∈ [t.buses.dl, t.buses.dr, t.buses.dm, t.buses.de1, t.buses.de2], b = List.replicate s.cfg.chunk 0)

/-! ## The datapath -/

/-- A per-tick evaluation gives destinations 2 to 23 the exact sums of their blocks' contributions and keeps 0 and 1; the
48-bit accumulator cannot overflow (R210, R216, R218, R40). -/
def Obligations.DestinationsAreExactSums : Prop :=
  ∀ (s : State) (v : Voice), RegistersInRange s → VoiceInRange v →
    (∀ e : CbEntry, -2147483648 ≤ contributionOf s v e ∧ contributionOf s v e ≤ 2147483648) ∧
    (∀ k : Fin 24, (evalTick s v).dst[k].toInt = if k.val < 2 then v.dst[k].toInt else resolved s v k.val) ∧
    { evalTick s v with dst := v.dst } = v

/-- Rearranging the blocks of a voice changes no destination, forced value or raised bit, of the per-tick evaluation and of
the note-on evaluation alike (R217). -/
def Obligations.BlockOrderDoesNotMatter : Prop :=
  ∀ (s : State) (v : Voice) (cb : Memory 32),
    ((List.range v.ident.cbcnt.toNat).map (block { s with cb := cb } v)).Perm
      ((List.range v.ident.cbcnt.toNat).map (block s v)) →
    evalTick { s with cb := cb } v = evalTick s v ∧ evalInit { s with cb := cb } v = evalInit s v ∧
    evalTickBad { s with cb := cb } v = evalTickBad s v ∧ evalInitBad { s with cb := cb } v = evalInitBad s v

/-- The value of every source selector is the one of R212's table, for the voice's own channel; a bad selector gives 0
(R107, R222 b). -/
def Obligations.SourcesReadTheirRegisters : Prop :=
  ∀ (s : State) (v : Voice) (sel : BitVec 16), Shaped s → ∃ u, u = sourceValue s v (Source.ofSelector s.cfg sel) ∧
    (sel = 0x1000 → u = 2 * (s.chan v.ident.chan).pb.toNat) ∧ (sel = 0x1001 → u = 256 * (s.chan v.ident.chan).cp.toNat) ∧
    (sel = 0x1002 → u = 256 * v.pp.toNat) ∧
    (∀ n : Fin 128, sel.toNat = 0x2000 + n.val → u = 256 * ((s.chan v.ident.chan).cc[n]).toNat) ∧
    (∀ j x, j < s.cfg.nRpn → j < 4096 → sel.toNat = 0x3000 + j → (s.chan v.ident.chan).rpn[j]? = some x → u = 2 * x.toNat) ∧
    (∀ j x, j < s.cfg.nNrpn → j < 4096 → sel.toNat = 0x4000 + j → (s.chan v.ident.chan).nrpn[j]? = some x →
      u = 2 * x.toNat) ∧
    (sel = 0x5000 → u = if v.flags.on = true then 32768 else 0) ∧
    (sel = 0x5001 → u = 256 * if v.forced.fvelv = true then v.forced.fvel.toNat else v.ident.vel.toNat) ∧
    (sel = 0x5002 → u = 256 * if v.forced.fkeyv = true then v.forced.fkey.toNat else v.ident.note.toNat) ∧
    (sel = 0x6000 → u = v.eg0.level.toNat) ∧ (sel = 0x6001 → u = v.eg1.level.toNat) ∧
    (sel = 0x7000 → u = v.lfo0.out.toNat) ∧ (sel = 0x7001 → u = v.lfo1.out.toNat) ∧
    (sel = 0x8000 → u = s.mvol.toNat) ∧ (sel = 0x8001 → u = s.mbal.toNat) ∧ (sel = 0x8002 → u = s.mfine.toNat) ∧
    (sel = 0x8003 → u = s.mcoarse.toNat) ∧ (badSelector s.cfg sel → u = 0) ∧
    (RegistersInRange s → VoiceInRange v → u ≤ 32768)

/-- Direction, shape, polarity, in that order, on the value of a source that is present; an absent source is 32768 whatever
the byte is (R108, R213, R214, R215). -/
def Obligations.TransformsInOrder : Prop :=
  ∀ (s : State) (v : Voice) (sel : BitVec 16) (xf : BitVec 8), RegistersInRange s → VoiceInRange v →
    (sel.toNat < 4096 → transform s v sel xf = 32768) ∧
    (4096 ≤ sel.toNat → ∃ (u t0 t1 : Nat), u = sourceValue s v (Source.ofSelector s.cfg sel) ∧
      t0 = (if xf.getLsbD 0 = true then 32768 - u else u) ∧
      (xf.toNat / 4 % 4 = 0 → t1 = t0) ∧
      (xf.toNat / 4 % 4 = 1 → t1 ≤ 32768 ∧ IsLeast {r : Nat | 32768 * 32768 - t0 * t0 ≤ r * r} (32768 - t1)) ∧
      (xf.toNat / 4 % 4 = 2 → t1 = if 16384 ≤ t0 then 32768 else 0) ∧
      (xf.toNat / 4 % 4 = 3 → t1 = t0) ∧
      transform s v sel xf = if xf.getLsbD 1 = true then 2 * (t1 : Int) - 32768 else (t1 : Int)) ∧
    -32768 ≤ transform s v sel xf ∧ transform s v sel xf ≤ 32768

/-- An evaluation raises `CBBAD` exactly when it meets a malformed entry among those it evaluates: a destination number
above 23 (per tick only), a bad selector, or shape 3 (R216, R218, R219, R222). And after a transition that does not clear
it, bit 4 of `ERR` is set exactly if it was set or the transition has one of R355's causes: a bad block range or a malformed
entry, at an `Init` (`VSTART` or promotion) or in the tick of an active voice. -/
def Obligations.MalformedEntriesRaiseCbbad : Prop :=
  (∀ (s : State) (v : Voice),
    (evalTickBad s v = true ↔ malformedAtTick s v.ident.cbbase.toNat v.ident.cbcnt.toNat) ∧
    (evalInitBad s v = true ↔ malformedAtNoteOn s v.ident.cbbase.toNat v.ident.cbcnt.toNat)) ∧
  ∀ s t : State, step s = .next t → s.sched.head? ≠ some .reset →
    (∀ mask, nextCommand s = some (.errclr mask) → mask.getLsbD 4 = false) →
    (t.err.getLsbD 4 = true ↔ s.err.getLsbD 4 = true ∨ CbbadCause s)

/-- The note-on evaluation: destinations 0 and 1 are the sums of their blocks, computed from the record's own velocity and
key; a forced value is set exactly when some block of the voice targets its destination, clamped to 0 to 127 (R219). -/
def Obligations.NoteOnEvaluationForces : Prop :=
  ∀ (s : State) (v w : Voice), RegistersInRange s → VoiceInRange v →
    v.forced = { fvelv := false, fkeyv := false, fvel := 0, fkey := 0 } → w = evalInit s v →
    w.dst[0].toInt = resolved s v 0 ∧ w.dst[1].toInt = resolved s v 1 ∧ (∀ k : Fin 24, 2 ≤ k.val → w.dst[k] = v.dst[k]) ∧
    (w.forced.fvelv = true ↔ ∃ j < v.ident.cbcnt.toNat, (block s v j).dstn = 0) ∧
    (w.forced.fkeyv = true ↔ ∃ j < v.ident.cbcnt.toNat, (block s v j).dstn = 1) ∧
    (w.forced.fvelv = true → (w.forced.fvel.toNat : Int) = max (0 : Int) (min 127 (w.dst[0].toInt / 65536))) ∧
    (w.forced.fkeyv = true → (w.forced.fkey.toNat : Int) = max (0 : Int) (min 127 (w.dst[1].toInt / 65536))) ∧
    { w with dst := v.dst, forced := v.forced } = v

/-- `Exp2C` is the floor of the real power over its whole domain (R12). -/
def Obligations.CentsToRatioIsTheFloor : Prop :=
  ∀ c : Int, -943718400 ≤ c → c ≤ 629145600 → (exp2C c : Int) = ⌊(32768 : ℝ) * (2 : ℝ) ^ ((c : ℝ) / 78643200)⌋

/-- `CbToAmp` is 32768 from 0 cB up, 0 from −960 cB down, and between them the floor of the real power (R13). -/
def Obligations.CentibelsToAmplitudeIsTheFloor : Prop :=
  ∀ c : Int, (0 ≤ c → cbToAmp c = 32768) ∧ (c ≤ -62914560 → cbToAmp c = 0) ∧
    (-62914560 < c → c < 0 → (cbToAmp c : Int) = ⌊(32768 : ℝ) * (10 : ℝ) ^ ((c : ℝ) / 13107200)⌋)

/-- `Concave` is the integer quarter circle: 0 at 0, 32768 at 32768, non-decreasing, below the diagonal (R14). -/
def Obligations.ConcaveIsTheQuarterCircle : Prop :=
  (∀ x ≤ 32768, concave x ≤ 32768 ∧ IsLeast {r : Nat | 32768 * 32768 - x * x ≤ r * r} (32768 - concave x)) ∧
  concave 0 = 0 ∧ concave 32768 = 32768 ∧ (∀ x y, x ≤ y → y ≤ 32768 → concave x ≤ concave y) ∧
  ∀ x ≤ 32768, concave x ≤ x

/-- One step of an envelope generator: the gate transitions, then the step of the stage it is now in (R242 to R249). -/
def Obligations.EnvelopesStepByStage : Prop :=
  ∀ (e : Eg) (don da dd ds dr : Int), EgInRange e → ∃ (n : Eg) (st : EgStage) (ea ed er sl : Nat),
    n = egAdvance e don da dd ds dr ∧
    (ea : Int) = (32768 + max 1 (min 65535 (da / 65536)) - 1) / max 1 (min 65535 (da / 65536)) ∧
    (ed : Int) = (32768 + max 1 (min 65535 (dd / 65536)) - 1) / max 1 (min 65535 (dd / 65536)) ∧
    (er : Int) = (32768 + max 1 (min 65535 (dr / 65536)) - 1) / max 1 (min 65535 (dr / 65536)) ∧
    (sl : Int) = max 0 (min 32768 (ds / 2)) ∧
    st = (if don ≤ 0 ∧ (e.stage = .attack ∨ e.stage = .decay ∨ e.stage = .sustain) then .release
      else if 0 < don ∧ e.stage = .idle then .attack else e.stage) ∧
    (st = .attack → n.level.toNat = min 32768 (e.level.toNat + ea) ∧
      n.stage = if n.level.toNat = 32768 then .decay else .attack) ∧
    (st = .decay → if (e.level.toNat : Int) - ed ≤ sl then n.level.toNat = sl ∧ n.stage = .sustain
      else (n.level.toNat : Int) = e.level.toNat - ed ∧ n.stage = .decay) ∧
    (st = .sustain → n.level.toNat = sl ∧ n.stage = .sustain) ∧
    (st = .release → (n.level.toNat : Int) = max 0 ((e.level.toNat : Int) - er) ∧
      n.stage = if n.level = 0 then .done else .release) ∧
    (st = .idle ∨ st = .done → n.stage = st ∧ n.level = 0)

/-- From level L a release lasts ceil(L / `EgStep(R)`) steps, at least one, and at most R (R248: "transition to inactive
within one release-envelope duration"). -/
def Obligations.ReleaseEndsInTime : Prop :=
  ∀ (e : Eg) (don da dd ds dr : Int) (r m : Nat), e.stage = .release → e.level.toNat ≤ 32768 →
    (r : Int) = max 1 (min 65535 (dr / 65536)) →
    m = max 1 ((e.level.toNat + (32768 + r - 1) / r - 1) / ((32768 + r - 1) / r)) →
    m ≤ r ∧ ((fun x => egAdvance x don da dd ds dr)^[m] e).stage = .done ∧
    ((fun x => egAdvance x don da dd ds dr)^[m] e).level = 0 ∧
    ∀ k < m, ((fun x => egAdvance x don da dd ds dr)^[k] e).stage = .release

/-- One step of an LFO: a delay tick, or the phase by the frequency and the triangle of the new phase (R252, R253, R254). -/
def Obligations.LfosStepOrWait : Prop :=
  ∀ (cfg : Config) (o : Lfo) (f : Int),
    (o.dcnt ≠ 0 → (lfoAdvance cfg o f).dcnt.toNat = o.dcnt.toNat - 1 ∧ (lfoAdvance cfg o f).ph = o.ph ∧
      (lfoAdvance cfg o f).out = 16384) ∧
    (o.dcnt = 0 → ∃ inc q : Nat, inc = min ((max f 0).toNat * 65536 / (cfg.fs / cfg.chunk)) 4294967295 ∧
      (lfoAdvance cfg o f).dcnt = 0 ∧ (lfoAdvance cfg o f).ph.toNat = (o.ph.toNat + inc) % 4294967296 ∧
      q = ((lfoAdvance cfg o f).ph.toNat + 1073741824) % 4294967296 / 65536 ∧
      (lfoAdvance cfg o f).out.toNat = if q < 32768 then q else 65536 - q)

/-- The resampler (R274, R275, R276, R279, R280). A position that has not ended reads its sample and the fraction of the way
to its neighbour: the next sample of the stream, or 0 past its last (no loop in force: mode `OFF`, or `RELEASE` after the
release), the loop's first after its last, the same sample where a ping-pong loop turns. A frame's step moves it by whole
samples: to the end of the stream and no further, round the loop, or to and fro. A position that has ended reads 0 and
stays. -/
def Obligations.ResamplerReadsAndMoves : Prop :=
  ∀ (s : State) (d : Desc) (p : Pos) (ctr step : Nat), DescPlayable s.cfg.waveSize d → s.cfg.waveSize ≤ 4294967296 →
    PosInView d p → ∃ (i whole loopEnd : Nat) (a : Pos) (linear round fro : Prop),
      i = p.srci.toNat ∧ whole = (p.frac.toNat + step) / 32768 ∧ loopEnd = d.lstart.toNat + d.llen.toNat ∧
      a = advance d p step ∧
      (linear ↔ p.loopen = false ∨ d.lmode = .off) ∧
      (round ↔ p.loopen = true ∧ (d.lmode = .forward ∨ d.lmode = .release)) ∧
      (fro ↔ p.loopen = true ∧ d.lmode = .pingpong) ∧
      (p.ended = true → interp s [] d p ctr = (0, ctr) ∧ a = p) ∧
      (p.ended = false → ∃ (next : Nat) (s0 s1 : Int),
        s0 = (s.waveRead (d.base.toNat + i)).toInt ∧
        (linear → d.len.toNat ≤ i + 1 → s1 = 0) ∧
        (¬ (linear ∧ d.len.toNat ≤ i + 1) → s1 = (s.waveRead (d.base.toNat + next)).toInt) ∧
        (linear → next = i + 1) ∧
        (round → next = if i + 1 < loopEnd then i + 1 else i + 1 - d.llen.toNat) ∧
        (fro → p.dir = .up → next = if i + 1 < loopEnd then i + 1 else i) ∧
        (fro → p.dir = .down → next = if d.lstart.toNat < i then i - 1 else i) ∧
        interp s [] d p ctr = (s0 + (s1 - s0) * p.frac.toNat / 32768, ctr) ∧
        a.frac.toNat = (p.frac.toNat + step) % 32768 ∧ a.loopen = p.loopen ∧
        (linear → a.dir = p.dir ∧ a.srci.toNat = min (i + whole) (d.len.toNat - 1) ∧
          (a.ended = true ↔ d.len.toNat ≤ i + whole)) ∧
        (round → a.dir = p.dir ∧ a.ended = false ∧
          a.srci.toNat = if i + whole < loopEnd then i + whole
            else d.lstart.toNat + (i + whole - d.lstart.toNat) % d.llen.toNat) ∧
        (fro → (p.dir = .down → d.lstart.toNat ≤ i) → a.ended = false ∧
          ∃ u m : Nat,
            u = (if p.dir = .up then i else d.lstart.toNat + 2 * d.llen.toNat - 1 - (i - d.lstart.toNat)) + whole ∧
            m = (u - d.lstart.toNat) % (2 * d.llen.toNat) ∧
            (u < d.lstart.toNat → a.srci.toNat = u ∧ a.dir = .up) ∧
            (d.lstart.toNat ≤ u → m < d.llen.toNat → a.srci.toNat = d.lstart.toNat + m ∧ a.dir = .up) ∧
            (d.lstart.toNat ≤ u → d.llen.toNat ≤ m →
              a.srci.toNat = d.lstart.toNat + (2 * d.llen.toNat - 1 - m) ∧ a.dir = .down)))

/-- The round-trip law: at unit pitch a looping voice reads whole samples, once through its attack part and then its loop over
and over, forward with period `LLEN`, to and fro with period 2·`LLEN` (R281, from R274 to R277). -/
def Obligations.LoopsRoundTrip : Prop :=
  ∀ (s : State) (d : Desc) (p : Pos) (m : Nat), DescPlayable s.cfg.waveSize d → s.cfg.waveSize ≤ 4294967296 →
    1 ≤ s.cfg.fs → d.rate.toNat = s.cfg.fs →
    p = { srci := 0, frac := 0, dir := .up, loopen := true, ended := false } →
    stepOf s.cfg d 0 = 32768 ∧
    ∀ q, q = (fun x => advance d x 32768)^[m] p →
      (d.lmode = .forward ∨ d.lmode = .release ∨ d.lmode = .pingpong → q.frac = 0 ∧ q.ended = false ∧
        (interp s [] d q 0).1 = (s.waveRead (d.base.toNat + q.srci.toNat)).toInt) ∧
      (d.lmode = .forward ∨ d.lmode = .release →
        q.srci.toNat = if m < d.lstart.toNat then m else d.lstart.toNat + (m - d.lstart.toNat) % d.llen.toNat) ∧
      (d.lmode = .pingpong →
        q.srci.toNat = if m < d.lstart.toNat then m
          else if (m - d.lstart.toNat) % (2 * d.llen.toNat) < d.llen.toNat then
            d.lstart.toNat + (m - d.lstart.toNat) % (2 * d.llen.toNat)
          else d.lstart.toNat + (2 * d.llen.toNat - 1 - (m - d.lstart.toNat) % (2 * d.llen.toNat)))

/-! ## Invariants -/

/-- Every step keeps the memories in their canonical form and inside their spaces. That the spaces have these elements is the
spec's (R70 to R73, R77); the canonical form and the element addresses, 7 for each descriptor and 3 for each entry, are the
model's own (log entry 3). -/
def Obligations.TablesStayInSpace : Prop := ∀ s t : State, TablesInSpace s → step s = .next t → TablesInSpace t

/-- Every step keeps every register inside its stated range (R385, R23, R27 to R30, R41 to R43, R46, R330). The delay buses
keep R330's bound because the model holds every effect unit to that contract (log entry 8). -/
def Obligations.RegistersStayInRange : Prop :=
  ∀ s t : State, RegistersInRange s → VoicesInRange s → DelaysBounded s → step s = .next t →
    RegistersInRange t ∧ VoicesInRange t ∧ DelaysBounded t

/-- Every step keeps the slot protocol, keeps every sounding voice reading inside WAVE and CB, and keeps the record of
rewritten samples inside live views (R180, R184, R271, R272, R274, R385; log entry 5). -/
def Obligations.VoicesStayInView : Prop :=
  ∀ s t : State, SlotsFollowProtocol s → VoicesPlayInView s → HazardsInLiveViews s → step s = .next t →
    SlotsFollowProtocol t ∧ VoicesPlayInView t ∧ HazardsInLiveViews t

/-- Every step keeps every array at its size, and `OUTRD` an index of the buffer or its end (R20, R34, R47, R48). -/
def Obligations.ArraysKeepTheirSizes : Prop := ∀ s t : State, Shaped s → step s = .next t → Shaped t

/-- Every step keeps these two: the machine is idle only while open and after five silent ticks, and while closed its dynamic
state is the one reset and `CLOSE` leave (R23, R121, R335, R370, R382). -/
def Obligations.IdleAndClosedStayQuiet : Prop :=
  ∀ s t : State, IdleIsOpen s → ClosedIsQuiet s → step s = .next t → IdleIsOpen t ∧ ClosedIsQuiet t

/-- The state after reset meets every one of the invariants; the canonical form and the element addresses of the memories are
the model's own (log entry 3), and so is the record of rewritten samples (log entry 5). -/
def Obligations.ResetMeetsTheInvariants : Prop :=
  TablesInSpace State.reset ∧ RegistersInRange State.reset ∧ VoicesInRange State.reset ∧ DelaysBounded State.reset ∧
  SlotsFollowProtocol State.reset ∧ VoicesPlayInView State.reset ∧ HazardsInLiveViews State.reset ∧ Shaped State.reset ∧
  IdleIsOpen State.reset ∧ ClosedIsQuiet State.reset
end

