-- ==== Sys2Proof/Laws/State.lean ====
section
/-! SUPPORT. One lemma per field per named update of the state, true by unfolding once, so that no later proof unfolds a
record update. -/

namespace Sys2Proof.Machine

/-! ## `State.mark` -/

@[simp] theorem State.mark_cfg (s : State) : s.mark.cfg = s.cfg := rfl
@[simp] theorem State.mark_run (s : State) : s.mark.run = s.run := rfl
@[simp] theorem State.mark_idle (s : State) : s.mark.idle = false := rfl
@[simp] theorem State.mark_silcnt (s : State) : s.mark.silcnt = s.silcnt := rfl
@[simp] theorem State.mark_tickcnt (s : State) : s.mark.tickcnt = s.tickcnt := rfl
@[simp] theorem State.mark_cmdseen (s : State) : s.mark.cmdseen = true := rfl
@[simp] theorem State.mark_asen (s : State) : s.mark.asen = s.asen := rfl
@[simp] theorem State.mark_ascnt (s : State) : s.mark.ascnt = 0 := rfl
@[simp] theorem State.mark_err (s : State) : s.mark.err = s.err := rfl
@[simp] theorem State.mark_ien (s : State) : s.mark.ien = s.ien := rfl
@[simp] theorem State.mark_mvol (s : State) : s.mark.mvol = s.mvol := rfl
@[simp] theorem State.mark_mbal (s : State) : s.mark.mbal = s.mbal := rfl
@[simp] theorem State.mark_mfine (s : State) : s.mark.mfine = s.mfine := rfl
@[simp] theorem State.mark_mcoarse (s : State) : s.mark.mcoarse = s.mcoarse := rfl
@[simp] theorem State.mark_gprevl (s : State) : s.mark.gprevl = s.gprevl := rfl
@[simp] theorem State.mark_gprevr (s : State) : s.mark.gprevr = s.gprevr := rfl
@[simp] theorem State.mark_wptr (s : State) : s.mark.wptr = s.wptr := rfl
@[simp] theorem State.mark_rsp (s : State) : s.mark.rsp = s.rsp := rfl
@[simp] theorem State.mark_fxst (s : State) : s.mark.fxst = s.fxst := rfl
@[simp] theorem State.mark_lr (s : State) : s.mark.lr = s.lr := rfl
@[simp] theorem State.mark_chans (s : State) : s.mark.chans = s.chans := rfl
@[simp] theorem State.mark_voices (s : State) : s.mark.voices = s.voices := rfl
@[simp] theorem State.mark_wave (s : State) : s.mark.wave = s.wave := rfl
@[simp] theorem State.mark_wt (s : State) : s.mark.wt = s.wt := rfl
@[simp] theorem State.mark_cb (s : State) : s.mark.cb = s.cb := rfl
@[simp] theorem State.mark_buses (s : State) : s.mark.buses = s.buses := rfl
@[simp] theorem State.mark_outbuf (s : State) : s.mark.outbuf = s.outbuf := rfl
@[simp] theorem State.mark_outrd (s : State) : s.mark.outrd = s.outrd := rfl
@[simp] theorem State.mark_sched (s : State) : s.mark.sched = s.sched := rfl
@[simp] theorem State.mark_sinkGot (s : State) : s.mark.sinkGot = s.sinkGot := rfl
@[simp] theorem State.mark_epoch (s : State) : s.mark.epoch = s.epoch := rfl
@[simp] theorem State.mark_freeCtr (s : State) : s.mark.freeCtr = s.freeCtr := rfl

/-! ## `State.raise` -/

@[simp] theorem State.raise_cfg (s : State) (b : ErrBit) : (s.raise b).cfg = s.cfg := rfl
@[simp] theorem State.raise_run (s : State) (b : ErrBit) : (s.raise b).run = s.run := rfl
@[simp] theorem State.raise_idle (s : State) (b : ErrBit) : (s.raise b).idle = s.idle := rfl
@[simp] theorem State.raise_silcnt (s : State) (b : ErrBit) : (s.raise b).silcnt = s.silcnt := rfl
@[simp] theorem State.raise_tickcnt (s : State) (b : ErrBit) : (s.raise b).tickcnt = s.tickcnt := rfl
@[simp] theorem State.raise_cmdseen (s : State) (b : ErrBit) : (s.raise b).cmdseen = s.cmdseen := rfl
@[simp] theorem State.raise_asen (s : State) (b : ErrBit) : (s.raise b).asen = s.asen := rfl
@[simp] theorem State.raise_ascnt (s : State) (b : ErrBit) : (s.raise b).ascnt = s.ascnt := rfl
@[simp] theorem State.raise_err (s : State) (b : ErrBit) : (s.raise b).err = s.err ||| b.mask := rfl
@[simp] theorem State.raise_ien (s : State) (b : ErrBit) : (s.raise b).ien = s.ien := rfl
@[simp] theorem State.raise_mvol (s : State) (b : ErrBit) : (s.raise b).mvol = s.mvol := rfl
@[simp] theorem State.raise_mbal (s : State) (b : ErrBit) : (s.raise b).mbal = s.mbal := rfl
@[simp] theorem State.raise_mfine (s : State) (b : ErrBit) : (s.raise b).mfine = s.mfine := rfl
@[simp] theorem State.raise_mcoarse (s : State) (b : ErrBit) : (s.raise b).mcoarse = s.mcoarse := rfl
@[simp] theorem State.raise_gprevl (s : State) (b : ErrBit) : (s.raise b).gprevl = s.gprevl := rfl
@[simp] theorem State.raise_gprevr (s : State) (b : ErrBit) : (s.raise b).gprevr = s.gprevr := rfl
@[simp] theorem State.raise_wptr (s : State) (b : ErrBit) : (s.raise b).wptr = s.wptr := rfl
@[simp] theorem State.raise_rsp (s : State) (b : ErrBit) : (s.raise b).rsp = s.rsp := rfl
@[simp] theorem State.raise_fxst (s : State) (b : ErrBit) : (s.raise b).fxst = s.fxst := rfl
@[simp] theorem State.raise_lr (s : State) (b : ErrBit) : (s.raise b).lr = s.lr := rfl
@[simp] theorem State.raise_chans (s : State) (b : ErrBit) : (s.raise b).chans = s.chans := rfl
@[simp] theorem State.raise_voices (s : State) (b : ErrBit) : (s.raise b).voices = s.voices := rfl
@[simp] theorem State.raise_wave (s : State) (b : ErrBit) : (s.raise b).wave = s.wave := rfl
@[simp] theorem State.raise_wt (s : State) (b : ErrBit) : (s.raise b).wt = s.wt := rfl
@[simp] theorem State.raise_cb (s : State) (b : ErrBit) : (s.raise b).cb = s.cb := rfl
@[simp] theorem State.raise_buses (s : State) (b : ErrBit) : (s.raise b).buses = s.buses := rfl
@[simp] theorem State.raise_outbuf (s : State) (b : ErrBit) : (s.raise b).outbuf = s.outbuf := rfl
@[simp] theorem State.raise_outrd (s : State) (b : ErrBit) : (s.raise b).outrd = s.outrd := rfl
@[simp] theorem State.raise_sched (s : State) (b : ErrBit) : (s.raise b).sched = s.sched := rfl
@[simp] theorem State.raise_sinkGot (s : State) (b : ErrBit) : (s.raise b).sinkGot = s.sinkGot := rfl
@[simp] theorem State.raise_epoch (s : State) (b : ErrBit) : (s.raise b).epoch = s.epoch := rfl
@[simp] theorem State.raise_freeCtr (s : State) (b : ErrBit) : (s.raise b).freeCtr = s.freeCtr := rfl

/-! ## `State.raiseAll` -/

@[simp] theorem State.raiseAll_cfg (s : State) (bits : BitVec 16) : (s.raiseAll bits).cfg = s.cfg := rfl
@[simp] theorem State.raiseAll_run (s : State) (bits : BitVec 16) : (s.raiseAll bits).run = s.run := rfl
@[simp] theorem State.raiseAll_idle (s : State) (bits : BitVec 16) : (s.raiseAll bits).idle = s.idle := rfl
@[simp] theorem State.raiseAll_silcnt (s : State) (bits : BitVec 16) : (s.raiseAll bits).silcnt = s.silcnt := rfl
@[simp] theorem State.raiseAll_tickcnt (s : State) (bits : BitVec 16) : (s.raiseAll bits).tickcnt = s.tickcnt := rfl
@[simp] theorem State.raiseAll_cmdseen (s : State) (bits : BitVec 16) : (s.raiseAll bits).cmdseen = s.cmdseen := rfl
@[simp] theorem State.raiseAll_asen (s : State) (bits : BitVec 16) : (s.raiseAll bits).asen = s.asen := rfl
@[simp] theorem State.raiseAll_ascnt (s : State) (bits : BitVec 16) : (s.raiseAll bits).ascnt = s.ascnt := rfl
@[simp] theorem State.raiseAll_err (s : State) (bits : BitVec 16) : (s.raiseAll bits).err = s.err ||| bits := rfl
@[simp] theorem State.raiseAll_ien (s : State) (bits : BitVec 16) : (s.raiseAll bits).ien = s.ien := rfl
@[simp] theorem State.raiseAll_mvol (s : State) (bits : BitVec 16) : (s.raiseAll bits).mvol = s.mvol := rfl
@[simp] theorem State.raiseAll_mbal (s : State) (bits : BitVec 16) : (s.raiseAll bits).mbal = s.mbal := rfl
@[simp] theorem State.raiseAll_mfine (s : State) (bits : BitVec 16) : (s.raiseAll bits).mfine = s.mfine := rfl
@[simp] theorem State.raiseAll_mcoarse (s : State) (bits : BitVec 16) : (s.raiseAll bits).mcoarse = s.mcoarse := rfl
@[simp] theorem State.raiseAll_gprevl (s : State) (bits : BitVec 16) : (s.raiseAll bits).gprevl = s.gprevl := rfl
@[simp] theorem State.raiseAll_gprevr (s : State) (bits : BitVec 16) : (s.raiseAll bits).gprevr = s.gprevr := rfl
@[simp] theorem State.raiseAll_wptr (s : State) (bits : BitVec 16) : (s.raiseAll bits).wptr = s.wptr := rfl
@[simp] theorem State.raiseAll_rsp (s : State) (bits : BitVec 16) : (s.raiseAll bits).rsp = s.rsp := rfl
@[simp] theorem State.raiseAll_fxst (s : State) (bits : BitVec 16) : (s.raiseAll bits).fxst = s.fxst := rfl
@[simp] theorem State.raiseAll_lr (s : State) (bits : BitVec 16) : (s.raiseAll bits).lr = s.lr := rfl
@[simp] theorem State.raiseAll_chans (s : State) (bits : BitVec 16) : (s.raiseAll bits).chans = s.chans := rfl
@[simp] theorem State.raiseAll_voices (s : State) (bits : BitVec 16) : (s.raiseAll bits).voices = s.voices := rfl
@[simp] theorem State.raiseAll_wave (s : State) (bits : BitVec 16) : (s.raiseAll bits).wave = s.wave := rfl
@[simp] theorem State.raiseAll_wt (s : State) (bits : BitVec 16) : (s.raiseAll bits).wt = s.wt := rfl
@[simp] theorem State.raiseAll_cb (s : State) (bits : BitVec 16) : (s.raiseAll bits).cb = s.cb := rfl
@[simp] theorem State.raiseAll_buses (s : State) (bits : BitVec 16) : (s.raiseAll bits).buses = s.buses := rfl
@[simp] theorem State.raiseAll_outbuf (s : State) (bits : BitVec 16) : (s.raiseAll bits).outbuf = s.outbuf := rfl
@[simp] theorem State.raiseAll_outrd (s : State) (bits : BitVec 16) : (s.raiseAll bits).outrd = s.outrd := rfl
@[simp] theorem State.raiseAll_sched (s : State) (bits : BitVec 16) : (s.raiseAll bits).sched = s.sched := rfl
@[simp] theorem State.raiseAll_sinkGot (s : State) (bits : BitVec 16) : (s.raiseAll bits).sinkGot = s.sinkGot := rfl
@[simp] theorem State.raiseAll_epoch (s : State) (bits : BitVec 16) : (s.raiseAll bits).epoch = s.epoch := rfl
@[simp] theorem State.raiseAll_freeCtr (s : State) (bits : BitVec 16) : (s.raiseAll bits).freeCtr = s.freeCtr := rfl

/-! ## `State.clearErr` -/

@[simp] theorem State.clearErr_cfg (s : State) (m : Word) : (s.clearErr m).cfg = s.cfg := rfl
@[simp] theorem State.clearErr_run (s : State) (m : Word) : (s.clearErr m).run = s.run := rfl
@[simp] theorem State.clearErr_idle (s : State) (m : Word) : (s.clearErr m).idle = s.idle := rfl
@[simp] theorem State.clearErr_silcnt (s : State) (m : Word) : (s.clearErr m).silcnt = s.silcnt := rfl
@[simp] theorem State.clearErr_tickcnt (s : State) (m : Word) : (s.clearErr m).tickcnt = s.tickcnt := rfl
@[simp] theorem State.clearErr_cmdseen (s : State) (m : Word) : (s.clearErr m).cmdseen = s.cmdseen := rfl
@[simp] theorem State.clearErr_asen (s : State) (m : Word) : (s.clearErr m).asen = s.asen := rfl
@[simp] theorem State.clearErr_ascnt (s : State) (m : Word) : (s.clearErr m).ascnt = s.ascnt := rfl
@[simp] theorem State.clearErr_err (s : State) (m : Word) :
    (s.clearErr m).err = s.err &&& ~~~low16 m &&& errMask := rfl
@[simp] theorem State.clearErr_ien (s : State) (m : Word) : (s.clearErr m).ien = s.ien := rfl
@[simp] theorem State.clearErr_mvol (s : State) (m : Word) : (s.clearErr m).mvol = s.mvol := rfl
@[simp] theorem State.clearErr_mbal (s : State) (m : Word) : (s.clearErr m).mbal = s.mbal := rfl
@[simp] theorem State.clearErr_mfine (s : State) (m : Word) : (s.clearErr m).mfine = s.mfine := rfl
@[simp] theorem State.clearErr_mcoarse (s : State) (m : Word) : (s.clearErr m).mcoarse = s.mcoarse := rfl
@[simp] theorem State.clearErr_gprevl (s : State) (m : Word) : (s.clearErr m).gprevl = s.gprevl := rfl
@[simp] theorem State.clearErr_gprevr (s : State) (m : Word) : (s.clearErr m).gprevr = s.gprevr := rfl
@[simp] theorem State.clearErr_wptr (s : State) (m : Word) : (s.clearErr m).wptr = s.wptr := rfl
@[simp] theorem State.clearErr_rsp (s : State) (m : Word) : (s.clearErr m).rsp = s.rsp := rfl
@[simp] theorem State.clearErr_fxst (s : State) (m : Word) : (s.clearErr m).fxst = s.fxst := rfl
@[simp] theorem State.clearErr_lr (s : State) (m : Word) : (s.clearErr m).lr = s.lr := rfl
@[simp] theorem State.clearErr_chans (s : State) (m : Word) : (s.clearErr m).chans = s.chans := rfl
@[simp] theorem State.clearErr_voices (s : State) (m : Word) : (s.clearErr m).voices = s.voices := rfl
@[simp] theorem State.clearErr_wave (s : State) (m : Word) : (s.clearErr m).wave = s.wave := rfl
@[simp] theorem State.clearErr_wt (s : State) (m : Word) : (s.clearErr m).wt = s.wt := rfl
@[simp] theorem State.clearErr_cb (s : State) (m : Word) : (s.clearErr m).cb = s.cb := rfl
@[simp] theorem State.clearErr_buses (s : State) (m : Word) : (s.clearErr m).buses = s.buses := rfl
@[simp] theorem State.clearErr_outbuf (s : State) (m : Word) : (s.clearErr m).outbuf = s.outbuf := rfl
@[simp] theorem State.clearErr_outrd (s : State) (m : Word) : (s.clearErr m).outrd = s.outrd := rfl
@[simp] theorem State.clearErr_sched (s : State) (m : Word) : (s.clearErr m).sched = s.sched := rfl
@[simp] theorem State.clearErr_sinkGot (s : State) (m : Word) : (s.clearErr m).sinkGot = s.sinkGot := rfl
@[simp] theorem State.clearErr_epoch (s : State) (m : Word) : (s.clearErr m).epoch = s.epoch := rfl
@[simp] theorem State.clearErr_freeCtr (s : State) (m : Word) : (s.clearErr m).freeCtr = s.freeCtr := rfl

/-! ## `State.respond` -/

@[simp] theorem State.respond_cfg (s : State) (r : Word) : (s.respond r).cfg = s.cfg := rfl
@[simp] theorem State.respond_run (s : State) (r : Word) : (s.respond r).run = s.run := rfl
@[simp] theorem State.respond_idle (s : State) (r : Word) : (s.respond r).idle = s.idle := rfl
@[simp] theorem State.respond_silcnt (s : State) (r : Word) : (s.respond r).silcnt = s.silcnt := rfl
@[simp] theorem State.respond_tickcnt (s : State) (r : Word) : (s.respond r).tickcnt = s.tickcnt := rfl
@[simp] theorem State.respond_cmdseen (s : State) (r : Word) : (s.respond r).cmdseen = s.cmdseen := rfl
@[simp] theorem State.respond_asen (s : State) (r : Word) : (s.respond r).asen = s.asen := rfl
@[simp] theorem State.respond_ascnt (s : State) (r : Word) : (s.respond r).ascnt = s.ascnt := rfl
@[simp] theorem State.respond_err (s : State) (r : Word) : (s.respond r).err = s.err := rfl
@[simp] theorem State.respond_ien (s : State) (r : Word) : (s.respond r).ien = s.ien := rfl
@[simp] theorem State.respond_mvol (s : State) (r : Word) : (s.respond r).mvol = s.mvol := rfl
@[simp] theorem State.respond_mbal (s : State) (r : Word) : (s.respond r).mbal = s.mbal := rfl
@[simp] theorem State.respond_mfine (s : State) (r : Word) : (s.respond r).mfine = s.mfine := rfl
@[simp] theorem State.respond_mcoarse (s : State) (r : Word) : (s.respond r).mcoarse = s.mcoarse := rfl
@[simp] theorem State.respond_gprevl (s : State) (r : Word) : (s.respond r).gprevl = s.gprevl := rfl
@[simp] theorem State.respond_gprevr (s : State) (r : Word) : (s.respond r).gprevr = s.gprevr := rfl
@[simp] theorem State.respond_wptr (s : State) (r : Word) : (s.respond r).wptr = s.wptr := rfl
@[simp] theorem State.respond_rsp (s : State) (r : Word) : (s.respond r).rsp = r := rfl
@[simp] theorem State.respond_fxst (s : State) (r : Word) : (s.respond r).fxst = s.fxst := rfl
@[simp] theorem State.respond_lr (s : State) (r : Word) : (s.respond r).lr = s.lr := rfl
@[simp] theorem State.respond_chans (s : State) (r : Word) : (s.respond r).chans = s.chans := rfl
@[simp] theorem State.respond_voices (s : State) (r : Word) : (s.respond r).voices = s.voices := rfl
@[simp] theorem State.respond_wave (s : State) (r : Word) : (s.respond r).wave = s.wave := rfl
@[simp] theorem State.respond_wt (s : State) (r : Word) : (s.respond r).wt = s.wt := rfl
@[simp] theorem State.respond_cb (s : State) (r : Word) : (s.respond r).cb = s.cb := rfl
@[simp] theorem State.respond_buses (s : State) (r : Word) : (s.respond r).buses = s.buses := rfl
@[simp] theorem State.respond_outbuf (s : State) (r : Word) : (s.respond r).outbuf = s.outbuf := rfl
@[simp] theorem State.respond_outrd (s : State) (r : Word) : (s.respond r).outrd = s.outrd := rfl
@[simp] theorem State.respond_sched (s : State) (r : Word) : (s.respond r).sched = s.sched := rfl
@[simp] theorem State.respond_sinkGot (s : State) (r : Word) : (s.respond r).sinkGot = s.sinkGot := rfl
@[simp] theorem State.respond_epoch (s : State) (r : Word) : (s.respond r).epoch = s.epoch := rfl
@[simp] theorem State.respond_freeCtr (s : State) (r : Word) : (s.respond r).freeCtr = s.freeCtr := rfl

/-! ## `State.waveWrite` -/

@[simp] theorem State.waveWrite_cfg (s : State) (a : Nat) (x : BitVec 16) : (s.waveWrite a x).cfg = s.cfg := rfl
@[simp] theorem State.waveWrite_run (s : State) (a : Nat) (x : BitVec 16) : (s.waveWrite a x).run = s.run := rfl
@[simp] theorem State.waveWrite_idle (s : State) (a : Nat) (x : BitVec 16) : (s.waveWrite a x).idle = s.idle := rfl
@[simp] theorem State.waveWrite_silcnt (s : State) (a : Nat) (x : BitVec 16) :
    (s.waveWrite a x).silcnt = s.silcnt := rfl
@[simp] theorem State.waveWrite_tickcnt (s : State) (a : Nat) (x : BitVec 16) :
    (s.waveWrite a x).tickcnt = s.tickcnt := rfl
@[simp] theorem State.waveWrite_cmdseen (s : State) (a : Nat) (x : BitVec 16) :
    (s.waveWrite a x).cmdseen = s.cmdseen := rfl
@[simp] theorem State.waveWrite_asen (s : State) (a : Nat) (x : BitVec 16) : (s.waveWrite a x).asen = s.asen := rfl
@[simp] theorem State.waveWrite_ascnt (s : State) (a : Nat) (x : BitVec 16) : (s.waveWrite a x).ascnt = s.ascnt := rfl
@[simp] theorem State.waveWrite_err (s : State) (a : Nat) (x : BitVec 16) : (s.waveWrite a x).err = s.err := rfl
@[simp] theorem State.waveWrite_ien (s : State) (a : Nat) (x : BitVec 16) : (s.waveWrite a x).ien = s.ien := rfl
@[simp] theorem State.waveWrite_mvol (s : State) (a : Nat) (x : BitVec 16) : (s.waveWrite a x).mvol = s.mvol := rfl
@[simp] theorem State.waveWrite_mbal (s : State) (a : Nat) (x : BitVec 16) : (s.waveWrite a x).mbal = s.mbal := rfl
@[simp] theorem State.waveWrite_mfine (s : State) (a : Nat) (x : BitVec 16) : (s.waveWrite a x).mfine = s.mfine := rfl
@[simp] theorem State.waveWrite_mcoarse (s : State) (a : Nat) (x : BitVec 16) :
    (s.waveWrite a x).mcoarse = s.mcoarse := rfl
@[simp] theorem State.waveWrite_gprevl (s : State) (a : Nat) (x : BitVec 16) :
    (s.waveWrite a x).gprevl = s.gprevl := rfl
@[simp] theorem State.waveWrite_gprevr (s : State) (a : Nat) (x : BitVec 16) :
    (s.waveWrite a x).gprevr = s.gprevr := rfl
@[simp] theorem State.waveWrite_wptr (s : State) (a : Nat) (x : BitVec 16) : (s.waveWrite a x).wptr = s.wptr := rfl
@[simp] theorem State.waveWrite_rsp (s : State) (a : Nat) (x : BitVec 16) : (s.waveWrite a x).rsp = s.rsp := rfl
@[simp] theorem State.waveWrite_fxst (s : State) (a : Nat) (x : BitVec 16) : (s.waveWrite a x).fxst = s.fxst := rfl
@[simp] theorem State.waveWrite_lr (s : State) (a : Nat) (x : BitVec 16) : (s.waveWrite a x).lr = s.lr := rfl
@[simp] theorem State.waveWrite_chans (s : State) (a : Nat) (x : BitVec 16) : (s.waveWrite a x).chans = s.chans := rfl
@[simp] theorem State.waveWrite_voices (s : State) (a : Nat) (x : BitVec 16) :
    (s.waveWrite a x).voices = s.voices := rfl
@[simp] theorem State.waveWrite_wave (s : State) (a : Nat) (x : BitVec 16) :
    (s.waveWrite a x).wave = s.wave.write a x := rfl
@[simp] theorem State.waveWrite_wt (s : State) (a : Nat) (x : BitVec 16) : (s.waveWrite a x).wt = s.wt := rfl
@[simp] theorem State.waveWrite_cb (s : State) (a : Nat) (x : BitVec 16) : (s.waveWrite a x).cb = s.cb := rfl
@[simp] theorem State.waveWrite_buses (s : State) (a : Nat) (x : BitVec 16) : (s.waveWrite a x).buses = s.buses := rfl
@[simp] theorem State.waveWrite_outbuf (s : State) (a : Nat) (x : BitVec 16) :
    (s.waveWrite a x).outbuf = s.outbuf := rfl
@[simp] theorem State.waveWrite_outrd (s : State) (a : Nat) (x : BitVec 16) : (s.waveWrite a x).outrd = s.outrd := rfl
@[simp] theorem State.waveWrite_sched (s : State) (a : Nat) (x : BitVec 16) : (s.waveWrite a x).sched = s.sched := rfl
@[simp] theorem State.waveWrite_sinkGot (s : State) (a : Nat) (x : BitVec 16) :
    (s.waveWrite a x).sinkGot = s.sinkGot := rfl
@[simp] theorem State.waveWrite_epoch (s : State) (a : Nat) (x : BitVec 16) : (s.waveWrite a x).epoch = s.epoch := rfl
@[simp] theorem State.waveWrite_freeCtr (s : State) (a : Nat) (x : BitVec 16) :
    (s.waveWrite a x).freeCtr = s.freeCtr := rfl

/-! ## `State.wtWrite` -/

@[simp] theorem State.wtWrite_cfg (s : State) (i f : Nat) (x : Word) : (s.wtWrite i f x).cfg = s.cfg := rfl
@[simp] theorem State.wtWrite_run (s : State) (i f : Nat) (x : Word) : (s.wtWrite i f x).run = s.run := rfl
@[simp] theorem State.wtWrite_idle (s : State) (i f : Nat) (x : Word) : (s.wtWrite i f x).idle = s.idle := rfl
@[simp] theorem State.wtWrite_silcnt (s : State) (i f : Nat) (x : Word) : (s.wtWrite i f x).silcnt = s.silcnt := rfl
@[simp] theorem State.wtWrite_tickcnt (s : State) (i f : Nat) (x : Word) :
    (s.wtWrite i f x).tickcnt = s.tickcnt := rfl
@[simp] theorem State.wtWrite_cmdseen (s : State) (i f : Nat) (x : Word) :
    (s.wtWrite i f x).cmdseen = s.cmdseen := rfl
@[simp] theorem State.wtWrite_asen (s : State) (i f : Nat) (x : Word) : (s.wtWrite i f x).asen = s.asen := rfl
@[simp] theorem State.wtWrite_ascnt (s : State) (i f : Nat) (x : Word) : (s.wtWrite i f x).ascnt = s.ascnt := rfl
@[simp] theorem State.wtWrite_err (s : State) (i f : Nat) (x : Word) : (s.wtWrite i f x).err = s.err := rfl
@[simp] theorem State.wtWrite_ien (s : State) (i f : Nat) (x : Word) : (s.wtWrite i f x).ien = s.ien := rfl
@[simp] theorem State.wtWrite_mvol (s : State) (i f : Nat) (x : Word) : (s.wtWrite i f x).mvol = s.mvol := rfl
@[simp] theorem State.wtWrite_mbal (s : State) (i f : Nat) (x : Word) : (s.wtWrite i f x).mbal = s.mbal := rfl
@[simp] theorem State.wtWrite_mfine (s : State) (i f : Nat) (x : Word) : (s.wtWrite i f x).mfine = s.mfine := rfl
@[simp] theorem State.wtWrite_mcoarse (s : State) (i f : Nat) (x : Word) :
    (s.wtWrite i f x).mcoarse = s.mcoarse := rfl
@[simp] theorem State.wtWrite_gprevl (s : State) (i f : Nat) (x : Word) : (s.wtWrite i f x).gprevl = s.gprevl := rfl
@[simp] theorem State.wtWrite_gprevr (s : State) (i f : Nat) (x : Word) : (s.wtWrite i f x).gprevr = s.gprevr := rfl
@[simp] theorem State.wtWrite_wptr (s : State) (i f : Nat) (x : Word) : (s.wtWrite i f x).wptr = s.wptr := rfl
@[simp] theorem State.wtWrite_rsp (s : State) (i f : Nat) (x : Word) : (s.wtWrite i f x).rsp = s.rsp := rfl
@[simp] theorem State.wtWrite_fxst (s : State) (i f : Nat) (x : Word) : (s.wtWrite i f x).fxst = s.fxst := rfl
@[simp] theorem State.wtWrite_lr (s : State) (i f : Nat) (x : Word) : (s.wtWrite i f x).lr = s.lr := rfl
@[simp] theorem State.wtWrite_chans (s : State) (i f : Nat) (x : Word) : (s.wtWrite i f x).chans = s.chans := rfl
@[simp] theorem State.wtWrite_voices (s : State) (i f : Nat) (x : Word) : (s.wtWrite i f x).voices = s.voices := rfl
@[simp] theorem State.wtWrite_wave (s : State) (i f : Nat) (x : Word) : (s.wtWrite i f x).wave = s.wave := rfl
@[simp] theorem State.wtWrite_wt (s : State) (i f : Nat) (x : Word) :
    (s.wtWrite i f x).wt = s.wt.write (wtAddr i f) x := rfl
@[simp] theorem State.wtWrite_cb (s : State) (i f : Nat) (x : Word) : (s.wtWrite i f x).cb = s.cb := rfl
@[simp] theorem State.wtWrite_buses (s : State) (i f : Nat) (x : Word) : (s.wtWrite i f x).buses = s.buses := rfl
@[simp] theorem State.wtWrite_outbuf (s : State) (i f : Nat) (x : Word) : (s.wtWrite i f x).outbuf = s.outbuf := rfl
@[simp] theorem State.wtWrite_outrd (s : State) (i f : Nat) (x : Word) : (s.wtWrite i f x).outrd = s.outrd := rfl
@[simp] theorem State.wtWrite_sched (s : State) (i f : Nat) (x : Word) : (s.wtWrite i f x).sched = s.sched := rfl
@[simp] theorem State.wtWrite_sinkGot (s : State) (i f : Nat) (x : Word) :
    (s.wtWrite i f x).sinkGot = s.sinkGot := rfl
@[simp] theorem State.wtWrite_epoch (s : State) (i f : Nat) (x : Word) : (s.wtWrite i f x).epoch = s.epoch := rfl
@[simp] theorem State.wtWrite_freeCtr (s : State) (i f : Nat) (x : Word) :
    (s.wtWrite i f x).freeCtr = s.freeCtr := rfl

/-! ## `State.cbWrite` -/

@[simp] theorem State.cbWrite_cfg (s : State) (i f : Nat) (x : Word) : (s.cbWrite i f x).cfg = s.cfg := rfl
@[simp] theorem State.cbWrite_run (s : State) (i f : Nat) (x : Word) : (s.cbWrite i f x).run = s.run := rfl
@[simp] theorem State.cbWrite_idle (s : State) (i f : Nat) (x : Word) : (s.cbWrite i f x).idle = s.idle := rfl
@[simp] theorem State.cbWrite_silcnt (s : State) (i f : Nat) (x : Word) : (s.cbWrite i f x).silcnt = s.silcnt := rfl
@[simp] theorem State.cbWrite_tickcnt (s : State) (i f : Nat) (x : Word) :
    (s.cbWrite i f x).tickcnt = s.tickcnt := rfl
@[simp] theorem State.cbWrite_cmdseen (s : State) (i f : Nat) (x : Word) :
    (s.cbWrite i f x).cmdseen = s.cmdseen := rfl
@[simp] theorem State.cbWrite_asen (s : State) (i f : Nat) (x : Word) : (s.cbWrite i f x).asen = s.asen := rfl
@[simp] theorem State.cbWrite_ascnt (s : State) (i f : Nat) (x : Word) : (s.cbWrite i f x).ascnt = s.ascnt := rfl
@[simp] theorem State.cbWrite_err (s : State) (i f : Nat) (x : Word) : (s.cbWrite i f x).err = s.err := rfl
@[simp] theorem State.cbWrite_ien (s : State) (i f : Nat) (x : Word) : (s.cbWrite i f x).ien = s.ien := rfl
@[simp] theorem State.cbWrite_mvol (s : State) (i f : Nat) (x : Word) : (s.cbWrite i f x).mvol = s.mvol := rfl
@[simp] theorem State.cbWrite_mbal (s : State) (i f : Nat) (x : Word) : (s.cbWrite i f x).mbal = s.mbal := rfl
@[simp] theorem State.cbWrite_mfine (s : State) (i f : Nat) (x : Word) : (s.cbWrite i f x).mfine = s.mfine := rfl
@[simp] theorem State.cbWrite_mcoarse (s : State) (i f : Nat) (x : Word) :
    (s.cbWrite i f x).mcoarse = s.mcoarse := rfl
@[simp] theorem State.cbWrite_gprevl (s : State) (i f : Nat) (x : Word) : (s.cbWrite i f x).gprevl = s.gprevl := rfl
@[simp] theorem State.cbWrite_gprevr (s : State) (i f : Nat) (x : Word) : (s.cbWrite i f x).gprevr = s.gprevr := rfl
@[simp] theorem State.cbWrite_wptr (s : State) (i f : Nat) (x : Word) : (s.cbWrite i f x).wptr = s.wptr := rfl
@[simp] theorem State.cbWrite_rsp (s : State) (i f : Nat) (x : Word) : (s.cbWrite i f x).rsp = s.rsp := rfl
@[simp] theorem State.cbWrite_fxst (s : State) (i f : Nat) (x : Word) : (s.cbWrite i f x).fxst = s.fxst := rfl
@[simp] theorem State.cbWrite_lr (s : State) (i f : Nat) (x : Word) : (s.cbWrite i f x).lr = s.lr := rfl
@[simp] theorem State.cbWrite_chans (s : State) (i f : Nat) (x : Word) : (s.cbWrite i f x).chans = s.chans := rfl
@[simp] theorem State.cbWrite_voices (s : State) (i f : Nat) (x : Word) : (s.cbWrite i f x).voices = s.voices := rfl
@[simp] theorem State.cbWrite_wave (s : State) (i f : Nat) (x : Word) : (s.cbWrite i f x).wave = s.wave := rfl
@[simp] theorem State.cbWrite_wt (s : State) (i f : Nat) (x : Word) : (s.cbWrite i f x).wt = s.wt := rfl
@[simp] theorem State.cbWrite_cb (s : State) (i f : Nat) (x : Word) :
    (s.cbWrite i f x).cb = s.cb.write (cbAddr i f) x := rfl
@[simp] theorem State.cbWrite_buses (s : State) (i f : Nat) (x : Word) : (s.cbWrite i f x).buses = s.buses := rfl
@[simp] theorem State.cbWrite_outbuf (s : State) (i f : Nat) (x : Word) : (s.cbWrite i f x).outbuf = s.outbuf := rfl
@[simp] theorem State.cbWrite_outrd (s : State) (i f : Nat) (x : Word) : (s.cbWrite i f x).outrd = s.outrd := rfl
@[simp] theorem State.cbWrite_sched (s : State) (i f : Nat) (x : Word) : (s.cbWrite i f x).sched = s.sched := rfl
@[simp] theorem State.cbWrite_sinkGot (s : State) (i f : Nat) (x : Word) :
    (s.cbWrite i f x).sinkGot = s.sinkGot := rfl
@[simp] theorem State.cbWrite_epoch (s : State) (i f : Nat) (x : Word) : (s.cbWrite i f x).epoch = s.epoch := rfl
@[simp] theorem State.cbWrite_freeCtr (s : State) (i f : Nat) (x : Word) :
    (s.cbWrite i f x).freeCtr = s.freeCtr := rfl

/-! ## `State.updChan` -/

@[simp] theorem State.updChan_cfg (s : State) (c : BitVec 4) (f : Channel → Channel) :
    (s.updChan c f).cfg = s.cfg := rfl
@[simp] theorem State.updChan_run (s : State) (c : BitVec 4) (f : Channel → Channel) :
    (s.updChan c f).run = s.run := rfl
@[simp] theorem State.updChan_idle (s : State) (c : BitVec 4) (f : Channel → Channel) :
    (s.updChan c f).idle = s.idle := rfl
@[simp] theorem State.updChan_silcnt (s : State) (c : BitVec 4) (f : Channel → Channel) :
    (s.updChan c f).silcnt = s.silcnt := rfl
@[simp] theorem State.updChan_tickcnt (s : State) (c : BitVec 4) (f : Channel → Channel) :
    (s.updChan c f).tickcnt = s.tickcnt := rfl
@[simp] theorem State.updChan_cmdseen (s : State) (c : BitVec 4) (f : Channel → Channel) :
    (s.updChan c f).cmdseen = s.cmdseen := rfl
@[simp] theorem State.updChan_asen (s : State) (c : BitVec 4) (f : Channel → Channel) :
    (s.updChan c f).asen = s.asen := rfl
@[simp] theorem State.updChan_ascnt (s : State) (c : BitVec 4) (f : Channel → Channel) :
    (s.updChan c f).ascnt = s.ascnt := rfl
@[simp] theorem State.updChan_err (s : State) (c : BitVec 4) (f : Channel → Channel) :
    (s.updChan c f).err = s.err := rfl
@[simp] theorem State.updChan_ien (s : State) (c : BitVec 4) (f : Channel → Channel) :
    (s.updChan c f).ien = s.ien := rfl
@[simp] theorem State.updChan_mvol (s : State) (c : BitVec 4) (f : Channel → Channel) :
    (s.updChan c f).mvol = s.mvol := rfl
@[simp] theorem State.updChan_mbal (s : State) (c : BitVec 4) (f : Channel → Channel) :
    (s.updChan c f).mbal = s.mbal := rfl
@[simp] theorem State.updChan_mfine (s : State) (c : BitVec 4) (f : Channel → Channel) :
    (s.updChan c f).mfine = s.mfine := rfl
@[simp] theorem State.updChan_mcoarse (s : State) (c : BitVec 4) (f : Channel → Channel) :
    (s.updChan c f).mcoarse = s.mcoarse := rfl
@[simp] theorem State.updChan_gprevl (s : State) (c : BitVec 4) (f : Channel → Channel) :
    (s.updChan c f).gprevl = s.gprevl := rfl
@[simp] theorem State.updChan_gprevr (s : State) (c : BitVec 4) (f : Channel → Channel) :
    (s.updChan c f).gprevr = s.gprevr := rfl
@[simp] theorem State.updChan_wptr (s : State) (c : BitVec 4) (f : Channel → Channel) :
    (s.updChan c f).wptr = s.wptr := rfl
@[simp] theorem State.updChan_rsp (s : State) (c : BitVec 4) (f : Channel → Channel) :
    (s.updChan c f).rsp = s.rsp := rfl
@[simp] theorem State.updChan_fxst (s : State) (c : BitVec 4) (f : Channel → Channel) :
    (s.updChan c f).fxst = s.fxst := rfl
@[simp] theorem State.updChan_lr (s : State) (c : BitVec 4) (f : Channel → Channel) : (s.updChan c f).lr = s.lr := rfl
@[simp] theorem State.updChan_chans (s : State) (c : BitVec 4) (f : Channel → Channel) :
    (s.updChan c f).chans = s.chans.set c.toFin (f (s.chan c)) := rfl
@[simp] theorem State.updChan_voices (s : State) (c : BitVec 4) (f : Channel → Channel) :
    (s.updChan c f).voices = s.voices := rfl
@[simp] theorem State.updChan_wave (s : State) (c : BitVec 4) (f : Channel → Channel) :
    (s.updChan c f).wave = s.wave := rfl
@[simp] theorem State.updChan_wt (s : State) (c : BitVec 4) (f : Channel → Channel) : (s.updChan c f).wt = s.wt := rfl
@[simp] theorem State.updChan_cb (s : State) (c : BitVec 4) (f : Channel → Channel) : (s.updChan c f).cb = s.cb := rfl
@[simp] theorem State.updChan_buses (s : State) (c : BitVec 4) (f : Channel → Channel) :
    (s.updChan c f).buses = s.buses := rfl
@[simp] theorem State.updChan_outbuf (s : State) (c : BitVec 4) (f : Channel → Channel) :
    (s.updChan c f).outbuf = s.outbuf := rfl
@[simp] theorem State.updChan_outrd (s : State) (c : BitVec 4) (f : Channel → Channel) :
    (s.updChan c f).outrd = s.outrd := rfl
@[simp] theorem State.updChan_sched (s : State) (c : BitVec 4) (f : Channel → Channel) :
    (s.updChan c f).sched = s.sched := rfl
@[simp] theorem State.updChan_sinkGot (s : State) (c : BitVec 4) (f : Channel → Channel) :
    (s.updChan c f).sinkGot = s.sinkGot := rfl
@[simp] theorem State.updChan_epoch (s : State) (c : BitVec 4) (f : Channel → Channel) :
    (s.updChan c f).epoch = s.epoch := rfl
@[simp] theorem State.updChan_freeCtr (s : State) (c : BitVec 4) (f : Channel → Channel) :
    (s.updChan c f).freeCtr = s.freeCtr := rfl

/-! ## `State.updVoice` -/

@[simp] theorem State.updVoice_cfg (s : State) (v : Nat) (f : Voice → Voice) : (s.updVoice v f).cfg = s.cfg := rfl
@[simp] theorem State.updVoice_run (s : State) (v : Nat) (f : Voice → Voice) : (s.updVoice v f).run = s.run := rfl
@[simp] theorem State.updVoice_idle (s : State) (v : Nat) (f : Voice → Voice) : (s.updVoice v f).idle = s.idle := rfl
@[simp] theorem State.updVoice_silcnt (s : State) (v : Nat) (f : Voice → Voice) :
    (s.updVoice v f).silcnt = s.silcnt := rfl
@[simp] theorem State.updVoice_tickcnt (s : State) (v : Nat) (f : Voice → Voice) :
    (s.updVoice v f).tickcnt = s.tickcnt := rfl
@[simp] theorem State.updVoice_cmdseen (s : State) (v : Nat) (f : Voice → Voice) :
    (s.updVoice v f).cmdseen = s.cmdseen := rfl
@[simp] theorem State.updVoice_asen (s : State) (v : Nat) (f : Voice → Voice) : (s.updVoice v f).asen = s.asen := rfl
@[simp] theorem State.updVoice_ascnt (s : State) (v : Nat) (f : Voice → Voice) :
    (s.updVoice v f).ascnt = s.ascnt := rfl
@[simp] theorem State.updVoice_err (s : State) (v : Nat) (f : Voice → Voice) : (s.updVoice v f).err = s.err := rfl
@[simp] theorem State.updVoice_ien (s : State) (v : Nat) (f : Voice → Voice) : (s.updVoice v f).ien = s.ien := rfl
@[simp] theorem State.updVoice_mvol (s : State) (v : Nat) (f : Voice → Voice) : (s.updVoice v f).mvol = s.mvol := rfl
@[simp] theorem State.updVoice_mbal (s : State) (v : Nat) (f : Voice → Voice) : (s.updVoice v f).mbal = s.mbal := rfl
@[simp] theorem State.updVoice_mfine (s : State) (v : Nat) (f : Voice → Voice) :
    (s.updVoice v f).mfine = s.mfine := rfl
@[simp] theorem State.updVoice_mcoarse (s : State) (v : Nat) (f : Voice → Voice) :
    (s.updVoice v f).mcoarse = s.mcoarse := rfl
@[simp] theorem State.updVoice_gprevl (s : State) (v : Nat) (f : Voice → Voice) :
    (s.updVoice v f).gprevl = s.gprevl := rfl
@[simp] theorem State.updVoice_gprevr (s : State) (v : Nat) (f : Voice → Voice) :
    (s.updVoice v f).gprevr = s.gprevr := rfl
@[simp] theorem State.updVoice_wptr (s : State) (v : Nat) (f : Voice → Voice) : (s.updVoice v f).wptr = s.wptr := rfl
@[simp] theorem State.updVoice_rsp (s : State) (v : Nat) (f : Voice → Voice) : (s.updVoice v f).rsp = s.rsp := rfl
@[simp] theorem State.updVoice_fxst (s : State) (v : Nat) (f : Voice → Voice) : (s.updVoice v f).fxst = s.fxst := rfl
@[simp] theorem State.updVoice_lr (s : State) (v : Nat) (f : Voice → Voice) : (s.updVoice v f).lr = s.lr := rfl
@[simp] theorem State.updVoice_chans (s : State) (v : Nat) (f : Voice → Voice) :
    (s.updVoice v f).chans = s.chans := rfl
@[simp] theorem State.updVoice_voices (s : State) (v : Nat) (f : Voice → Voice) :
    (s.updVoice v f).voices = s.voices.modify v f := rfl
@[simp] theorem State.updVoice_wave (s : State) (v : Nat) (f : Voice → Voice) : (s.updVoice v f).wave = s.wave := rfl
@[simp] theorem State.updVoice_wt (s : State) (v : Nat) (f : Voice → Voice) : (s.updVoice v f).wt = s.wt := rfl
@[simp] theorem State.updVoice_cb (s : State) (v : Nat) (f : Voice → Voice) : (s.updVoice v f).cb = s.cb := rfl
@[simp] theorem State.updVoice_buses (s : State) (v : Nat) (f : Voice → Voice) :
    (s.updVoice v f).buses = s.buses := rfl
@[simp] theorem State.updVoice_outbuf (s : State) (v : Nat) (f : Voice → Voice) :
    (s.updVoice v f).outbuf = s.outbuf := rfl
@[simp] theorem State.updVoice_outrd (s : State) (v : Nat) (f : Voice → Voice) :
    (s.updVoice v f).outrd = s.outrd := rfl
@[simp] theorem State.updVoice_sched (s : State) (v : Nat) (f : Voice → Voice) :
    (s.updVoice v f).sched = s.sched := rfl
@[simp] theorem State.updVoice_sinkGot (s : State) (v : Nat) (f : Voice → Voice) :
    (s.updVoice v f).sinkGot = s.sinkGot := rfl
@[simp] theorem State.updVoice_epoch (s : State) (v : Nat) (f : Voice → Voice) :
    (s.updVoice v f).epoch = s.epoch := rfl
@[simp] theorem State.updVoice_freeCtr (s : State) (v : Nat) (f : Voice → Voice) :
    (s.updVoice v f).freeCtr = s.freeCtr := rfl

/-! ## `State.schedule` -/

@[simp] theorem State.schedule_cfg (s : State) (e : Event) : (s.schedule e).cfg = s.cfg := rfl
@[simp] theorem State.schedule_run (s : State) (e : Event) : (s.schedule e).run = s.run := rfl
@[simp] theorem State.schedule_idle (s : State) (e : Event) : (s.schedule e).idle = s.idle := rfl
@[simp] theorem State.schedule_silcnt (s : State) (e : Event) : (s.schedule e).silcnt = s.silcnt := rfl
@[simp] theorem State.schedule_tickcnt (s : State) (e : Event) : (s.schedule e).tickcnt = s.tickcnt := rfl
@[simp] theorem State.schedule_cmdseen (s : State) (e : Event) : (s.schedule e).cmdseen = s.cmdseen := rfl
@[simp] theorem State.schedule_asen (s : State) (e : Event) : (s.schedule e).asen = s.asen := rfl
@[simp] theorem State.schedule_ascnt (s : State) (e : Event) : (s.schedule e).ascnt = s.ascnt := rfl
@[simp] theorem State.schedule_err (s : State) (e : Event) : (s.schedule e).err = s.err := rfl
@[simp] theorem State.schedule_ien (s : State) (e : Event) : (s.schedule e).ien = s.ien := rfl
@[simp] theorem State.schedule_mvol (s : State) (e : Event) : (s.schedule e).mvol = s.mvol := rfl
@[simp] theorem State.schedule_mbal (s : State) (e : Event) : (s.schedule e).mbal = s.mbal := rfl
@[simp] theorem State.schedule_mfine (s : State) (e : Event) : (s.schedule e).mfine = s.mfine := rfl
@[simp] theorem State.schedule_mcoarse (s : State) (e : Event) : (s.schedule e).mcoarse = s.mcoarse := rfl
@[simp] theorem State.schedule_gprevl (s : State) (e : Event) : (s.schedule e).gprevl = s.gprevl := rfl
@[simp] theorem State.schedule_gprevr (s : State) (e : Event) : (s.schedule e).gprevr = s.gprevr := rfl
@[simp] theorem State.schedule_wptr (s : State) (e : Event) : (s.schedule e).wptr = s.wptr := rfl
@[simp] theorem State.schedule_rsp (s : State) (e : Event) : (s.schedule e).rsp = s.rsp := rfl
@[simp] theorem State.schedule_fxst (s : State) (e : Event) : (s.schedule e).fxst = s.fxst := rfl
@[simp] theorem State.schedule_lr (s : State) (e : Event) : (s.schedule e).lr = s.lr := rfl
@[simp] theorem State.schedule_chans (s : State) (e : Event) : (s.schedule e).chans = s.chans := rfl
@[simp] theorem State.schedule_voices (s : State) (e : Event) : (s.schedule e).voices = s.voices := rfl
@[simp] theorem State.schedule_wave (s : State) (e : Event) : (s.schedule e).wave = s.wave := rfl
@[simp] theorem State.schedule_wt (s : State) (e : Event) : (s.schedule e).wt = s.wt := rfl
@[simp] theorem State.schedule_cb (s : State) (e : Event) : (s.schedule e).cb = s.cb := rfl
@[simp] theorem State.schedule_buses (s : State) (e : Event) : (s.schedule e).buses = s.buses := rfl
@[simp] theorem State.schedule_outbuf (s : State) (e : Event) : (s.schedule e).outbuf = s.outbuf := rfl
@[simp] theorem State.schedule_outrd (s : State) (e : Event) : (s.schedule e).outrd = s.outrd := rfl
@[simp] theorem State.schedule_sched (s : State) (e : Event) : (s.schedule e).sched = e :: s.sched := rfl
@[simp] theorem State.schedule_sinkGot (s : State) (e : Event) : (s.schedule e).sinkGot = s.sinkGot := rfl
@[simp] theorem State.schedule_epoch (s : State) (e : Event) : (s.schedule e).epoch = s.epoch := rfl
@[simp] theorem State.schedule_freeCtr (s : State) (e : Event) : (s.schedule e).freeCtr = s.freeCtr := rfl

/-! ## `State.channelOff` -/

@[simp] theorem State.channelOff_cfg (s : State) (c : BitVec 4) (m : Bool) : (s.channelOff c m).cfg = s.cfg := rfl
@[simp] theorem State.channelOff_run (s : State) (c : BitVec 4) (m : Bool) : (s.channelOff c m).run = s.run := rfl
@[simp] theorem State.channelOff_idle (s : State) (c : BitVec 4) (m : Bool) : (s.channelOff c m).idle = s.idle := rfl
@[simp] theorem State.channelOff_silcnt (s : State) (c : BitVec 4) (m : Bool) :
    (s.channelOff c m).silcnt = s.silcnt := rfl
@[simp] theorem State.channelOff_tickcnt (s : State) (c : BitVec 4) (m : Bool) :
    (s.channelOff c m).tickcnt = s.tickcnt := rfl
@[simp] theorem State.channelOff_cmdseen (s : State) (c : BitVec 4) (m : Bool) :
    (s.channelOff c m).cmdseen = s.cmdseen := rfl
@[simp] theorem State.channelOff_asen (s : State) (c : BitVec 4) (m : Bool) : (s.channelOff c m).asen = s.asen := rfl
@[simp] theorem State.channelOff_ascnt (s : State) (c : BitVec 4) (m : Bool) :
    (s.channelOff c m).ascnt = s.ascnt := rfl
@[simp] theorem State.channelOff_err (s : State) (c : BitVec 4) (m : Bool) : (s.channelOff c m).err = s.err := rfl
@[simp] theorem State.channelOff_ien (s : State) (c : BitVec 4) (m : Bool) : (s.channelOff c m).ien = s.ien := rfl
@[simp] theorem State.channelOff_mvol (s : State) (c : BitVec 4) (m : Bool) : (s.channelOff c m).mvol = s.mvol := rfl
@[simp] theorem State.channelOff_mbal (s : State) (c : BitVec 4) (m : Bool) : (s.channelOff c m).mbal = s.mbal := rfl
@[simp] theorem State.channelOff_mfine (s : State) (c : BitVec 4) (m : Bool) :
    (s.channelOff c m).mfine = s.mfine := rfl
@[simp] theorem State.channelOff_mcoarse (s : State) (c : BitVec 4) (m : Bool) :
    (s.channelOff c m).mcoarse = s.mcoarse := rfl
@[simp] theorem State.channelOff_gprevl (s : State) (c : BitVec 4) (m : Bool) :
    (s.channelOff c m).gprevl = s.gprevl := rfl
@[simp] theorem State.channelOff_gprevr (s : State) (c : BitVec 4) (m : Bool) :
    (s.channelOff c m).gprevr = s.gprevr := rfl
@[simp] theorem State.channelOff_wptr (s : State) (c : BitVec 4) (m : Bool) : (s.channelOff c m).wptr = s.wptr := rfl
@[simp] theorem State.channelOff_rsp (s : State) (c : BitVec 4) (m : Bool) : (s.channelOff c m).rsp = s.rsp := rfl
@[simp] theorem State.channelOff_fxst (s : State) (c : BitVec 4) (m : Bool) : (s.channelOff c m).fxst = s.fxst := rfl
@[simp] theorem State.channelOff_lr (s : State) (c : BitVec 4) (m : Bool) : (s.channelOff c m).lr = s.lr := rfl
@[simp] theorem State.channelOff_chans (s : State) (c : BitVec 4) (m : Bool) :
    (s.channelOff c m).chans = s.chans := rfl
@[simp] theorem State.channelOff_voices (s : State) (c : BitVec 4) (m : Bool) :
    (s.channelOff c m).voices = s.voices.map fun v => v.channelOff c m := rfl
@[simp] theorem State.channelOff_wave (s : State) (c : BitVec 4) (m : Bool) : (s.channelOff c m).wave = s.wave := rfl
@[simp] theorem State.channelOff_wt (s : State) (c : BitVec 4) (m : Bool) : (s.channelOff c m).wt = s.wt := rfl
@[simp] theorem State.channelOff_cb (s : State) (c : BitVec 4) (m : Bool) : (s.channelOff c m).cb = s.cb := rfl
@[simp] theorem State.channelOff_buses (s : State) (c : BitVec 4) (m : Bool) :
    (s.channelOff c m).buses = s.buses := rfl
@[simp] theorem State.channelOff_outbuf (s : State) (c : BitVec 4) (m : Bool) :
    (s.channelOff c m).outbuf = s.outbuf := rfl
@[simp] theorem State.channelOff_outrd (s : State) (c : BitVec 4) (m : Bool) :
    (s.channelOff c m).outrd = s.outrd := rfl
@[simp] theorem State.channelOff_sched (s : State) (c : BitVec 4) (m : Bool) :
    (s.channelOff c m).sched = s.sched := rfl
@[simp] theorem State.channelOff_sinkGot (s : State) (c : BitVec 4) (m : Bool) :
    (s.channelOff c m).sinkGot = s.sinkGot := rfl
@[simp] theorem State.channelOff_epoch (s : State) (c : BitVec 4) (m : Bool) :
    (s.channelOff c m).epoch = s.epoch := rfl
@[simp] theorem State.channelOff_freeCtr (s : State) (c : BitVec 4) (m : Bool) :
    (s.channelOff c m).freeCtr = s.freeCtr := rfl

end Sys2Proof.Machine
end

