-- ==== Sys2Proof/Laws/Memory.lean ====
section
/-! SUPPORT. The table memories: a read after a write, the canonical form, what a write lists. -/

namespace Sys2Proof.Machine

variable {w : Nat}

/-- A write changes the element it addresses and no other. -/
theorem Memory.read?_write (m : Memory w) (a b : Nat) (x : BitVec w) :
    (m.write a x).read? b = if b = a then some x else m.read? b := by
  induction m with
  | nil => simp [Memory.write, Memory.read?]
  | cons e rest ih =>
    obtain ⟨c, y⟩ := e
    simp only [Memory.write]
    split
    · simp [Memory.read?]
    · split
      · rename_i h
        subst h
        by_cases hb : b = a <;> simp [Memory.read?, hb]
      · rename_i h1 h2
        by_cases hc : b = c
        · subst hc
          have : b ≠ a := fun h => h2 h.symm
          simp [Memory.read?, this]
        · simp [Memory.read?, hc, ih]

/-- What a write lists: the written element, and elements listed before. -/
theorem Memory.mem_write {m : Memory w} {a : Nat} {x : BitVec w} {e : Nat × BitVec w} (h : e ∈ m.write a x) :
    e = (a, x) ∨ e ∈ m := by
  induction m with
  | nil => simpa [Memory.write] using h
  | cons c rest ih =>
    obtain ⟨c, y⟩ := c
    simp only [Memory.write] at h
    split at h
    · simpa using h
    · split at h
      · simp only [List.mem_cons] at h ⊢
        tauto
      · simp only [List.mem_cons] at h ⊢
        tauto

/-- A memory is canonical when its first address is below all others and the rest is canonical. -/
theorem Memory.wf_cons (a : Nat) (x : BitVec w) (m : Memory w) :
    Memory.wf ((a, x) :: m) = true ↔ (∀ e ∈ m.head?, a < e.1) ∧ m.wf = true := by
  cases m with
  | nil => simp [Memory.wf]
  | cons e rest => simp [Memory.wf]

/-- The head of a written memory is the written element or the old head. -/
theorem Memory.head?_write {m : Memory w} {a : Nat} {x : BitVec w} {e : Nat × BitVec w}
    (h : e ∈ (m.write a x).head?) : e.1 = a ∨ e ∈ m.head? := by
  cases m with
  | nil => simp [Memory.write] at h; simp [← h]
  | cons c rest =>
    obtain ⟨c, y⟩ := c
    simp only [Memory.write] at h
    split at h
    · simp at h; simp [← h]
    · split at h
      · simp at h; simp [← h]
      · simp at h; simp [← h]

/-- A write keeps the canonical form. -/
theorem Memory.wf_write {m : Memory w} (a : Nat) (x : BitVec w) (h : m.wf = true) : (m.write a x).wf = true := by
  induction m with
  | nil => simp [Memory.write, Memory.wf]
  | cons c rest ih =>
    obtain ⟨c, y⟩ := c
    obtain ⟨hhead, hrest⟩ := (Memory.wf_cons c y rest).mp h
    simp only [Memory.write]
    split
    · rename_i hlt
      exact (Memory.wf_cons _ _ _).mpr ⟨by simpa using hlt, h⟩
    · split
      · rename_i heq
        subst heq
        exact (Memory.wf_cons _ _ _).mpr ⟨hhead, hrest⟩
      · refine (Memory.wf_cons _ _ _).mpr ⟨fun e he => ?_, ih hrest⟩
        rcases Memory.head?_write he with h' | h'
        · omega
        · exact hhead e h'

/-- The reset memory is canonical. -/
theorem Memory.wf_nil : Memory.wf ([] : Memory w) = true := rfl

/-- The element addresses of two WT fields coincide only for the same field. -/
theorem wtAddr_inj {i j f g : Nat} (hf : f < 7) (hg : g < 7) : wtAddr i f = wtAddr j g ↔ i = j ∧ f = g := by
  unfold wtAddr; omega

/-- The element addresses of two CB fields coincide only for the same field. -/
theorem cbAddr_inj {i j f g : Nat} (hf : f < 3) (hg : g < 3) : cbAddr i f = cbAddr j g ↔ i = j ∧ f = g := by
  unfold cbAddr; omega

end Sys2Proof.Machine
end

