-- ==== Sys2Proof/Laws/Ops.lean ====
section
/-! SUPPORT. One lemma for each shared operation that says all it can do: the register files, the error bits, the stages of
a command, the schedule. -/

namespace Sys2Proof.Machine

/-! ## Register files -/

/-- A channel update changes that channel and no other. -/
theorem State.chan_updChan (s : State) (c d : BitVec 4) (f : Channel → Channel) :
    (s.updChan c f).chan d = if d = c then f (s.chan c) else s.chan d := by
  by_cases h : d = c
  · subst h; simp [State.chan]
  · have : c.toFin ≠ d.toFin := fun e => h (BitVec.eq_of_toNat_eq (by simpa [Fin.ext_iff] using e.symm))
    simp [State.chan, h]
    exact Vector.getElem_set_ne (h := by simpa [Fin.ext_iff] using this) ..

/-- A slot update changes that slot and no other. -/
theorem State.voice_updVoice (s : State) {v : Nat} (w : Nat) (f : Voice → Voice) (hv : v < s.voices.length) :
    (s.updVoice v f).voice w = if w = v then f (s.voice v) else s.voice w := by
  simp only [State.voice, State.updVoice_voices, List.getD_eq_getElem?_getD, List.getElem?_modify]
  by_cases h : w = v
  · subst h; simp [hv]
  · have : ¬ v = w := fun e => h e.symm
    simp [h, this]

/-- A slot in range is one of the listed voices. -/
theorem State.voice_mem (s : State) {v : Nat} (hv : v < s.voices.length) : s.voice v ∈ s.voices := by
  simp [State.voice, List.getD_eq_getElem?_getD, hv]

/-- A slot out of range shows a reset voice. -/
theorem State.voice_ge (s : State) {v : Nat} (hv : s.voices.length ≤ v) : s.voice v = Voice.reset := by
  simp [State.voice, List.getD_eq_getElem?_getD, hv]

/-- A map over the slots acts on each slot. -/
theorem State.voice_map (s : State) {v : Nat} (f : Voice → Voice) (hv : v < s.voices.length) (t : State)
    (ht : t.voices = s.voices.map f) : t.voice v = f (s.voice v) := by
  simp [State.voice, ht, List.getD_eq_getElem?_getD, hv]

/-! ## Error bits -/

/-- The word of one bit, by number (R350). -/
theorem ErrBit.mask_eq (b : ErrBit) : b.mask = BitVec.twoPow 16 b.num := rfl

/-- Every bit the machine raises is implemented (R350). -/
theorem ErrBit.mask_implemented (b : ErrBit) : b.mask &&& ~~~0x033F#16 = 0 := by cases b <;> decide

/-- Raising a conditional bit is raising it or nothing. -/
theorem State.raiseAll_maskIf (s : State) (b : ErrBit) (c : Bool) :
    s.raiseAll (b.maskIf c) = if c then s.raise b else s := by
  cases c <;> simp [State.raiseAll, State.raise, ErrBit.maskIf]

/-! ## The stages of a command -/

/-- Activity marking leaves the configuration-dependent reads of the tables alone. -/
@[simp] theorem State.mark_waveRead (s : State) (a : Nat) : s.mark.waveRead a = s.waveRead a := rfl
@[simp] theorem State.mark_wtRead (s : State) (i f : Nat) : s.mark.wtRead i f = s.wtRead i f := rfl
@[simp] theorem State.mark_cbRead (s : State) (i f : Nat) : s.mark.cbRead i f = s.cbRead i f := rfl
@[simp] theorem State.mark_voice (s : State) (v : Nat) : s.mark.voice v = s.voice v := rfl
@[simp] theorem State.mark_chan (s : State) (c : BitVec 4) : s.mark.chan c = s.chan c := rfl
@[simp] theorem State.mark_descAt (s : State) (i : Nat) : s.mark.descAt i = s.descAt i := rfl
@[simp] theorem validate_mark (s : State) (r : LaunchRec) : validate s.mark r = validate s r := rfl

/-- A closed-set command on an open machine (R105). -/
theorem closedSetCommand_open {s : State} (h : s.run = true) (f : State → State) : closedSetCommand s f = f s.mark := by
  simp [closedSetCommand, h]

/-- A closed-set command on a closed machine only marks activity (R105). -/
theorem closedSetCommand_closed {s : State} (h : s.run = false) (f : State → State) : closedSetCommand s f = s.mark := by
  simp [closedSetCommand, h]

/-- A passed range check. -/
theorem checkRange_ok {ok : Bool} (h : ok = true) (f : State → State) (s : State) : checkRange ok f s = f s := by
  simp [checkRange, h]

/-- A failed range check raises `RANGE` and nothing else (R352). -/
theorem checkRange_bad {ok : Bool} (h : ok = false) (f : State → State) (s : State) :
    checkRange ok f s = s.raise .range := by
  simp [checkRange, h]

/-- A channel command in order: open machine, channel in range. -/
theorem channelCommand_ok {s : State} {c : BitVec 8} (h : s.run = true) (hc : c.toNat ≤ 15)
    (f : BitVec 4 → State → State) : channelCommand c f s = f (c.setWidth 4) s.mark := by
  simp [channelCommand, closedSetCommand, checkRange, h, hc]

/-- A channel command with a channel out of range (R352). -/
theorem channelCommand_bad {s : State} {c : BitVec 8} (h : s.run = true) (hc : 15 < c.toNat)
    (f : BitVec 4 → State → State) : channelCommand c f s = s.mark.raise .range := by
  have : ¬ c.toNat ≤ 15 := by omega
  simp [channelCommand, closedSetCommand, checkRange, h, this]

/-- A slot command in order: open machine, slot in range. -/
theorem slotCommand_ok {s : State} {v : BitVec 8} (h : s.run = true) (hv : v.toNat < s.cfg.nv)
    (f : Nat → State → State) : slotCommand v f s = f v.toNat s.mark := by
  simp [slotCommand, closedSetCommand, checkRange, h, hv]

/-- A slot command with a slot out of range (R352). -/
theorem slotCommand_bad {s : State} {v : BitVec 8} (h : s.run = true) (hv : s.cfg.nv ≤ v.toNat)
    (f : Nat → State → State) : slotCommand v f s = s.mark.raise .range := by
  have : ¬ v.toNat < s.cfg.nv := by omega
  simp [slotCommand, closedSetCommand, checkRange, h, this]

/-! ## The WAVE pointer -/

/-- The pointer is one further, and at most at the end of a memory that R7 allows (R30, R161). -/
theorem State.storeSample_wptr {s : State} (x : BitVec 16) (h : s.wptr.toNat < s.cfg.waveSize)
    (hw : s.cfg.waveSize ≤ 2 ^ 32) : (s.storeSample x).wptr.toNat = s.wptr.toNat + 1 := by
  show (s.wptr + 1).toNat = s.wptr.toNat + 1
  simp
  omega

/-! ## The schedule -/

/-- Taking the next transition. -/
theorem takeEvent_cons {s : State} {e : Event} {rest : List Event} (h : s.sched = e :: rest) :
    takeEvent s = some (e, { s with sched := rest }) := by
  simp [takeEvent, h]

/-- Nothing scheduled. -/
theorem takeEvent_nil {s : State} (h : s.sched = []) : takeEvent s = none := by
  simp [takeEvent, h]

end Sys2Proof.Machine
end

