-- ==== Sys2Proof/Laws/Numeric.lean ====
section
/-! SUPPORT. The ranges of the numeric operations: clamps, ramps, gains, the ROM functions' bounds. -/

namespace Sys2Proof.Machine

/-! ## Clamps -/

/-- A clamp lies between its limits. -/
theorem clamp_bounds {x lo hi : Int} (h : lo ≤ hi) : lo ≤ clamp x lo hi ∧ clamp x lo hi ≤ hi := by
  unfold clamp; split <;> [skip; split] <;> omega

/-- A value within the limits is its own clamp. -/
theorem clamp_of_mem {x lo hi : Int} (h1 : lo ≤ x) (h2 : x ≤ hi) : clamp x lo hi = x := by
  unfold clamp; split <;> [skip; split] <;> omega

/-- `asr` is floor division by a power of two (R9). -/
theorem asr_eq (x : Int) (n : Nat) : asr x n = x / 2 ^ n := by
  unfold asr; rw [Int.shiftRight_eq_div_pow]; norm_cast

/-- A level destination is a Q15 value (R221). -/
theorem levelOf_le (x : Int) : levelOf x ≤ 32768 := by
  have := clamp_bounds (x := asr x 1) (lo := 0) (hi := 32768) (by omega)
  unfold levelOf; omega

/-- An envelope time is 1 to 65535 ticks (R243). -/
theorem egTime_bounds (x : Int) : 1 ≤ egTime x ∧ egTime x ≤ 65535 := by
  have := clamp_bounds (x := asr x 16) (lo := 1) (hi := 65535) (by omega)
  unfold egTime; omega

/-- A position is a Q15 value (R318). -/
theorem panPos_le (x : Int) : panPos x ≤ 32768 := by
  have := clamp_bounds (x := 16384 + asr x 2) (lo := 0) (hi := 32768) (by omega)
  unfold panPos; omega

/-! ## Gains -/

/-- The product of two Q15 values, shifted back, is a Q15 value. -/
theorem q15_mul_le {a b : Nat} (ha : a ≤ 32768) (hb : b ≤ 32768) : (a * b) >>> 15 ≤ 32768 := by
  rw [Nat.shiftRight_eq_div_pow]
  calc a * b / 2 ^ 15 ≤ 32768 * 32768 / 2 ^ 15 := Nat.div_le_div_right (Nat.mul_le_mul ha hb)
    _ = 32768 := by norm_num

theorem panL_le (p : Nat) : panL p ≤ 32768 := Nat.min_le_left _ _

theorem panR_le (p : Nat) : panR p ≤ 32768 := Nat.min_le_left _ _

theorem gainL_le (p b : Nat) : gainL p b ≤ 32768 := q15_mul_le (panL_le p) (panL_le b)

theorem gainR_le (p b : Nat) : gainR p b ≤ 32768 := q15_mul_le (panR_le p) (panR_le b)

theorem squaredGain_le {m : BitVec 16} (h : m.toNat ≤ 32768) : squaredGain m ≤ 32768 := q15_mul_le h h

theorem State.masterL_le {s : State} (h : s.mvol.toNat ≤ 32768) : s.masterL ≤ 32768 :=
  q15_mul_le (squaredGain_le h) (panL_le _)

theorem State.masterR_le {s : State} (h : s.mvol.toNat ≤ 32768) : s.masterR ≤ 32768 :=
  q15_mul_le (squaredGain_le h) (panR_le _)

/-- A ramp between two bounded values is bounded (R10). -/
theorem ramp_le {old new j n b : Nat} (hj : j < n) (ho : old ≤ b) (hn : new ≤ b) : ramp old new j n ≤ b := by
  unfold ramp
  have h : n - 1 - j + (j + 1) = n := by omega
  have : old * (n - 1 - j) + new * (j + 1) ≤ b * n := by
    calc old * (n - 1 - j) + new * (j + 1) ≤ b * (n - 1 - j) + b * (j + 1) :=
          Nat.add_le_add (Nat.mul_le_mul_right _ ho) (Nat.mul_le_mul_right _ hn)
      _ = b * n := by rw [← Nat.mul_add, h]
  exact Nat.div_le_of_le_mul (this.trans_eq (Nat.mul_comm b n))

/-- A ramp ends on its target (R10). -/
theorem ramp_last (old new n : Nat) (h : 0 < n) : ramp old new (n - 1) n = new := by
  obtain ⟨m, rfl⟩ : ∃ m, n = m + 1 := ⟨n - 1, by omega⟩
  simp [ramp]

/-- A constant ramp is constant (R10). -/
theorem ramp_same (x j n : Nat) (h : j < n) : ramp x x j n = x := by
  unfold ramp
  rw [← Nat.mul_add, show n - 1 - j + (j + 1) = n by omega]
  exact Nat.mul_div_cancel _ (by omega)

/-! ## Registers written from bounded numbers -/

theorem ofNat16_le {n : Nat} (h : n ≤ 32768) : (BitVec.ofNat 16 n).toNat ≤ 32768 := by
  simp; omega

/-- The saturated operand of `MSET` is a Q15 value (R123). -/
theorem saturated_le (d : Word) : (saturated d).toNat ≤ 32768 := ofNat16_le (by simp [one])

/-! ## The integer square root -/

/-- The bit search keeps its bounds. -/
theorem isqrtBits_spec {n k r : Nat} (h1 : r * r ≤ n) (h2 : n < (r + 2 ^ k) * (r + 2 ^ k)) :
    isqrtBits n k r * isqrtBits n k r ≤ n ∧ n < (isqrtBits n k r + 1) * (isqrtBits n k r + 1) := by
  induction k generalizing r with
  | zero => exact ⟨h1, h2⟩
  | succ k ih =>
    unfold isqrtBits
    split
    · rename_i h
      exact ih h (by rw [show r + 2 ^ k + 2 ^ k = r + 2 ^ (k + 1) by ring]; exact h2)
    · rename_i h; exact ih h1 (by omega)

/-- `isqrt` is the integer square root. -/
theorem isqrt_spec (n : Nat) : isqrt n * isqrt n ≤ n ∧ n < (isqrt n + 1) * (isqrt n + 1) := by
  refine isqrtBits_spec (by simp) ?_
  have h1 : n < 2 ^ (n.log2 + 1) := Nat.lt_log2_self
  have h2 : (2 : Nat) ^ (n.log2 + 1) ≤ 2 ^ ((n.log2 / 2 + 1) + (n.log2 / 2 + 1)) :=
    Nat.pow_le_pow_right (by omega) (by omega)
  rw [Nat.pow_add 2 (n.log2 / 2 + 1)] at h2
  simp only [Nat.zero_add]
  exact h1.trans_le h2

/-- `ceilsqrt` is the least number whose square reaches n (R9). -/
theorem ceilsqrt_le_iff (n r : Nat) : ceilsqrt n ≤ r ↔ n ≤ r * r := by
  have hq := isqrt_spec n
  unfold ceilsqrt
  generalize isqrt n = q at hq
  split
  · rename_i h
    constructor
    · intro h2; have := Nat.mul_le_mul h2 h2; omega
    · intro h2; by_contra hc
      have : (r + 1) * (r + 1) ≤ q * q := Nat.mul_le_mul (by omega) (by omega)
      nlinarith
  · constructor
    · intro h2; have := Nat.mul_le_mul h2 h2; omega
    · intro h2; by_contra hc
      have h3 : r ≤ q := by omega
      have := Nat.mul_le_mul h3 h3
      omega

/-! ## Oscillators -/

theorem lfoQ_lt (ph : BitVec 32) : lfoQ ph < 65536 := by
  unfold lfoQ
  rw [Nat.shiftRight_eq_div_pow]
  have := (ph + 0x40000000#32).isLt
  omega

/-- The triangle is a Q15 value (R253). -/
theorem lfoTri_le (ph : BitVec 32) : (lfoTri ph).toNat ≤ 32768 := by
  unfold lfoTri
  have := lfoQ_lt ph
  refine ofNat16_le ?_
  split <;> omega

/-! ## The ROM functions -/

/-- A downward search answers a value that passes the test, or 0. -/
theorem greatestDown_passes (test : Nat → Bool) (n : Nat) :
    greatestDown test n = 0 ∨ test (greatestDown test n) = true := by
  induction n with
  | zero => simp [greatestDown]
  | succ n ih =>
    unfold greatestDown
    split
    · rename_i h; exact Or.inr h
    · exact ih

/-- A downward search answers at least every value below its start that passes the test. -/
theorem le_greatestDown {test : Nat → Bool} {n y : Nat} (hy : y ≤ n) (ht : test y = true) :
    y ≤ greatestDown test n := by
  induction n with
  | zero => omega
  | succ n ih =>
    unfold greatestDown
    split
    · exact hy
    · rename_i h
      rcases Nat.lt_or_ge n y with h' | h'
      · have : y = n + 1 := by omega
        subst this; exact absurd ht h
      · exact ih h'

/-- Multiplying by factors below the scale does not raise the lower bound. -/
theorem romProduct_fst_le {fs : List Nat} (hf : ∀ a ∈ fs, a ≤ romScale) (r l u : Nat) : (romProduct fs r l u).1 ≤ l := by
  induction fs generalizing r l u with
  | nil => simp [romProduct]
  | cons a as ih =>
    have has : ∀ x ∈ as, x ≤ romScale := fun x hx => hf x (by simp [hx])
    unfold romProduct
    split
    · refine (ih has _ _ _).trans ?_
      calc l * a / romScale ≤ l * romScale / romScale := Nat.div_le_div_right (Nat.mul_le_mul_left l (hf a (by simp)))
        _ = l := Nat.mul_div_cancel l (by norm_num [romScale])
    · exact ih has _ _ _

theorem cbFactors_le : ∀ a ∈ cbFactors, a ≤ romScale := by decide

/-- A value that passes the exact test of `CbToAmp` is at most full scale (R13). -/
theorem cbLe_le {m y : Nat} (h : cbLe m y = true) : y ≤ 32768 := by
  by_contra hy
  have h1 : 32768 ^ decade < y ^ decade := Nat.pow_lt_pow_left (by omega) (by decide)
  have h2 : y ^ decade ≤ y ^ decade * 10 ^ m := Nat.le_mul_of_pos_right _ (Nat.pow_pos (by omega))
  have h3 := of_decide_eq_true h
  omega

theorem cbBelow_le (m : Nat) : cbBelow m ≤ 32768 := by
  unfold cbBelow
  split
  · unfold cbBounds
    have h := romProduct_fst_le cbFactors_le m romScale romScale
    calc (romProduct cbFactors m romScale romScale).1 * 32768 / romScale
        ≤ romScale * 32768 / romScale := Nat.div_le_div_right (Nat.mul_le_mul_right _ h)
      _ = 32768 := by norm_num [romScale]
  · rcases greatestDown_passes (cbLe m) (cbBounds m).2 with h | h
    · omega
    · exact cbLe_le h

/-- `CbToAmp` is a Q15 value (R13). -/
theorem cbToAmp_le (c : Int) : cbToAmp c ≤ 32768 := by
  unfold cbToAmp
  split
  · simp
  · split
    · simp
    · exact cbBelow_le _

end Sys2Proof.Machine
end

