-- ==== Sys2Proof/Laws/Keeps.lean ====
section
/-! SUPPORT. What a step can do, said once: every transition is made of the named effects below, so a property that each of
them keeps is kept by every step. `Keeps P` lists the effects, with what the machine has checked before each. -/

namespace Sys2Proof.Machine

/-! ## What a command can do to one voice slot -/

/-- The changes that a command makes to a slot (R180), with what it has checked. -/
inductive VoiceEdit (s : State) : Voice → Voice → Prop
  | off (v : Voice) (c : BitVec 4) (m : Bool) : VoiceEdit s v (v.channelOff c m)
  | rel (v : Voice) (c : BitVec 4) (m0 m1 : Bool) : VoiceEdit s v (v.channelRelease c m0 m1)
  | note (v : Voice) (mode : Nat) : VoiceEdit s v (v.noteOff mode)
  | sil (v : Voice) (h : v.act = true) : VoiceEdit s v v.silence
  | cancel (v : Voice) : VoiceEdit s v { v with pend := .none }
  | glide (v : Voice) (r : LaunchRec) : VoiceEdit s v (v.glideTo r)
  | press (v : Voice) (x : BitVec 7) : VoiceEdit s v { v with pp := x }
  | same (v : Voice) : VoiceEdit s v v
  | take (v : Voice) (h : v.act = true) (hp : v.pend.valid = false) (hv : validate s s.lr = none) :
      VoiceEdit s v (v.takeover s.lr)
  | init (v : Voice) (h : v.act = false) (hp : v.pend.valid = false) (hv : validate s s.lr = none) :
      VoiceEdit s v (initVoice s s.lr)

/-! ## What the phases of a tick can do -/

/-- A property kept by each phase of a tick (R300) of an open machine that is not idle. -/
structure KeepsTick (P : State → Prop) : Prop where
  delayIn : ∀ s, P s → P (delayIn s)
  count : ∀ s, P s → P { s with ascnt := countUp s.ascnt }
  off : ∀ s c, P s → P (s.channelOff c true)
  fired : ∀ s, P s → P ({ s with asen := false }.raise .wdog)
  promote : ∀ s, P s → P (promoteAll s)
  control : ∀ s, P s → P (controlAll s)
  fxCtl : ∀ s, P s → P (fxControl s)
  audio : ∀ s, P s → P (audioAll s)
  fold : ∀ s, P s → P (monoFold s)
  fxAud : ∀ s, P s → P (fxAudio s)
  output : ∀ s, P s → P (tickOutput s)

theorem KeepsTick.allSoundOff {P : State → Prop} (h : KeepsTick P) {s : State} (hs : P s) : P (allSoundOff s) := by
  unfold Machine.allSoundOff
  generalize List.range 16 = cs
  induction cs generalizing s with
  | nil => exact hs
  | cons c cs ih => exact ih (h.off _ _ hs)

theorem KeepsTick.watchdog {P : State → Prop} (h : KeepsTick P) {s : State} (hs : P s) : P (watchdog s) := by
  unfold Machine.watchdog
  split
  · exact h.fired _ (h.allSoundOff (h.count s hs))
  · exact h.count s hs

theorem KeepsTick.tickToBuses {P : State → Prop} (h : KeepsTick P) {s : State} (hs : P s) : P (tickToBuses s) :=
  h.fxAud _ (h.fold _ (h.audio _ (h.fxCtl _ (h.control _ (h.promote _ (h.watchdog (h.delayIn _ hs)))))))

theorem KeepsTick.tick {P : State → Prop} (h : KeepsTick P) {s : State} (hs : P s) : P (tick s) :=
  h.output _ (h.tickToBuses hs)

/-! ## What a step can do -/

/-- A property kept by every effect of every transition. -/
structure Keeps (P : State → Prop) : Prop where
  pop : ∀ s r, P s → P { s with sched := r }
  mark : ∀ s, P s → P s.mark
  raise : ∀ s b, P s → P (s.raise b)
  respond : ∀ s r, P s → P (s.respond r)
  opens : ∀ s, P s → s.run = false → P { s with run := true, idle := false, silcnt := 0, outrd := s.cfg.outBytes }
  closes : ∀ s, P s → P (closeMachine s)
  resets : ∀ s, P s → P (resetMachine s)
  master : ∀ s n d, P s → P (s.setMaster n (saturated d))
  asense : ∀ s b, P s → P { s with asen := b }
  errclr : ∀ s d, P s → P (s.clearErr d)
  ienset : ∀ s (d : Word), P s → P { s with ien := low16 d &&& errMask }
  chan : ∀ s c f, P s → s.run = true →
    (∀ ch : Channel, (f ch).rpn.length = ch.rpn.length ∧ (f ch).nrpn.length = ch.nrpn.length) → P (s.updChan c f)
  voices : ∀ s f, P s → s.run = true → (∀ v, VoiceEdit s v (f v)) → P { s with voices := s.voices.map f }
  voice : ∀ s n v, P s → s.run = true → VoiceEdit s (s.voice n) v → P (s.updVoice n fun _ => v)
  wptr : ∀ s (a : BitVec 32), P s → a.toNat < s.cfg.waveSize → P { s with wptr := a.setWidth 33 }
  wwr : ∀ s x, P s → s.wptr.toNat < s.cfg.waveSize → P (s.storeSample x)
  wtwr : ∀ s (i f : Nat) x, P s → f ≤ 6 → i < s.cfg.nwt → P (s.wtWrite i f (descFieldValue f x))
  cbwr : ∀ s (i f : Nat) x, P s → f ≤ 2 → i < s.cfg.ncb → P (s.cbWrite i f x)
  lrwr : ∀ s f d, P s → P { s with lr := s.lr.setField f d }
  idle : ∀ s, P s → s.run = true → s.idle = true → s.outrd = s.cfg.outBytes → P (syntheticSilence s)
  ticks : ∀ s, P s → s.run = true → s.idle = false → s.outrd = s.cfg.outBytes → P (tick s)
  pull : ∀ s, P s → s.run = true → s.outrd < s.cfg.outBytes →
    P { s with sinkGot := s.sinkGot ++ [s.outbuf.getD s.outrd 0], outrd := s.outrd + 1 }

namespace Keeps

variable {P : State → Prop} (h : Keeps P)
include h

theorem raiseAll {s : State} (b : ErrBit) (c : Bool) (hs : P s) : P (s.raiseAll (b.maskIf c)) := by
  rw [State.raiseAll_maskIf]
  split
  · exact h.raise s b hs
  · exact hs

theorem closedSet {s : State} {f : State → State} (hs : P s)
    (hf : ∀ t, P t → t.run = true → t.cfg = s.cfg → P (f t)) : P (closedSetCommand s f) := by
  unfold closedSetCommand
  split
  · rename_i hr; exact hf _ (h.mark s hs) hr rfl
  · exact h.mark s hs

theorem check {s : State} {ok : Bool} {f : State → State} (hs : P s) (hf : ok = true → P (f s)) :
    P (checkRange ok f s) := by
  unfold checkRange
  split
  · rename_i ho; exact hf ho
  · exact h.raise s _ hs

theorem channel {s : State} {c : BitVec 8} {f : BitVec 4 → State → State} (hs : P s)
    (hf : ∀ c t, P t → t.run = true → P (f c t)) : P (channelCommand c f s) :=
  h.closedSet hs fun t ht hr _ => h.check ht fun _ => hf _ t ht hr

theorem slot {s : State} {v : BitVec 8} {f : Nat → State → State} (hs : P s)
    (hf : ∀ t, P t → t.run = true → P (f v.toNat t)) : P (slotCommand v f s) :=
  h.closedSet hs fun t ht hr _ => h.check ht fun _ => hf t ht hr

theorem updVoice {s : State} {n : Nat} {f : Voice → Voice} (hs : P s) (hr : s.run = true)
    (hf : VoiceEdit s (s.voice n) (f (s.voice n))) : P (s.updVoice n f) := by
  have heq : s.updVoice n f = s.updVoice n fun _ => f (s.voice n) := by
    unfold State.updVoice
    congr 1
    apply List.ext_getElem?
    intro i
    simp only [List.getElem?_modify]
    by_cases hi : n = i
    · subst hi
      simp only [if_true]
      cases hx : s.voices[n]? <;> simp [State.voice, List.getD_eq_getElem?_getD, hx]
    · simp [hi]
  rw [heq]
  exact h.voice s n _ hs hr hf

theorem start {s : State} (n : Nat) (hs : P s) (hr : s.run = true) : P (startOn n s) := by
  unfold startOn
  split
  · exact h.raise s _ hs
  · rename_i hp
    have hp : (s.voice n).pend.valid = false := by simpa using hp
    split
    · exact h.raise s _ hs
    · rename_i hv
      unfold launchOn
      split
      · rename_i ha
        exact h.updVoice hs hr (.take _ ha hp hv)
      · rename_i ha
        exact h.raiseAll _ _ (h.voice s n _ hs hr (.init _ (by simpa using ha) hp hv))

/-- Every command keeps a property that every effect keeps. -/
theorem exec {i : Instr} {s t : State} (hs : P s) (he : exec i s = .next t) : P t := by
  cases i with
  | nop => simp only [Machine.exec, execNop, done, Host.Outcome.next.injEq] at he; exact he ▸ hs
  | open_ =>
    simp only [Machine.exec, execOpen, done, Host.Outcome.next.injEq, activityCommand] at he
    subst he
    split
    · exact h.mark s hs
    · rename_i hr; exact h.opens _ (h.mark s hs) (by simpa using hr)
  | close =>
    simp only [Machine.exec, execClose, done, Host.Outcome.next.injEq, activityCommand] at he
    subst he
    split
    · exact h.closes _ (h.mark s hs)
    · exact h.mark s hs
  | mset r d =>
    simp only [Machine.exec, execMset, done, Host.Outcome.next.injEq, activityCommand] at he
    exact he ▸ h.check (h.mark s hs) fun _ => h.master _ _ _ (h.mark s hs)
  | asense d =>
    simp only [Machine.exec, execAsense, done, Host.Outcome.next.injEq, activityCommand] at he
    exact he ▸ h.asense _ _ (h.mark s hs)
  | errclr d =>
    simp only [Machine.exec, execErrclr, done, Host.Outcome.next.injEq, activityCommand] at he
    exact he ▸ h.errclr _ _ (h.mark s hs)
  | ienset d =>
    simp only [Machine.exec, execIenset, done, Host.Outcome.next.injEq, activityCommand] at he
    exact he ▸ h.ienset _ _ (h.mark s hs)
  | rdg r =>
    simp only [Machine.exec, execRdg, done, Host.Outcome.next.injEq] at he
    subst he
    split
    · exact h.respond _ _ hs
    · exact h.respond _ _ (h.raise _ _ hs)
  | ccwr c n d =>
    simp only [Machine.exec, execCcwr, done, Host.Outcome.next.injEq] at he
    exact he ▸ h.channel hs fun c t ht hr => h.check ht fun _ => h.chan _ _ _ ht hr fun _ => ⟨rfl, rfl⟩
  | pbwr c d =>
    simp only [Machine.exec, execPbwr, done, Host.Outcome.next.injEq] at he
    exact he ▸ h.channel hs fun c t ht hr => h.chan _ _ _ ht hr fun _ => ⟨rfl, rfl⟩
  | cpwr c d =>
    simp only [Machine.exec, execCpwr, done, Host.Outcome.next.injEq] at he
    exact he ▸ h.channel hs fun c t ht hr => h.chan _ _ _ ht hr fun _ => ⟨rfl, rfl⟩
  | rpnwr c n d =>
    simp only [Machine.exec, execRpnwr, done, Host.Outcome.next.injEq] at he
    exact he ▸ h.channel hs fun c t ht hr => h.check ht fun _ => h.chan _ _ _ ht hr fun _ => ⟨by simp, rfl⟩
  | nrpnwr c n d =>
    simp only [Machine.exec, execNrpnwr, done, Host.Outcome.next.injEq] at he
    exact he ▸ h.channel hs fun c t ht hr => h.check ht fun _ => h.chan _ _ _ ht hr fun _ => ⟨rfl, by simp⟩
  | choff c d =>
    simp only [Machine.exec, execChoff, done, Host.Outcome.next.injEq] at he
    exact he ▸ h.channel hs fun c t ht hr => h.voices _ _ ht hr fun v => .off v _ _
  | chrel c d =>
    simp only [Machine.exec, execChrel, done, Host.Outcome.next.injEq] at he
    exact he ▸ h.channel hs fun c t ht hr => h.voices _ _ ht hr fun v => .rel v _ _ _
  | wptr a =>
    simp only [Machine.exec, execWptr, done, Host.Outcome.next.injEq, activityCommand] at he
    exact he ▸ h.check (h.mark s hs) fun ho => h.wptr _ _ (h.mark s hs) (of_decide_eq_true ho)
  | wwr x =>
    simp only [Machine.exec, execWwr, done, Host.Outcome.next.injEq, activityCommand] at he
    exact he ▸ h.check (h.mark s hs) fun ho => h.wwr _ _ (h.mark s hs) (of_decide_eq_true ho)
  | wtwr f i x =>
    simp only [Machine.exec, execWtwr, done, Host.Outcome.next.injEq, activityCommand] at he
    refine he ▸ h.check (h.mark s hs) fun ho => ?_
    simp only [Bool.and_eq_true, decide_eq_true_eq] at ho
    exact h.wtwr _ _ _ _ (h.mark s hs) ho.1 ho.2
  | cbwr f i x =>
    simp only [Machine.exec, execCbwr, done, Host.Outcome.next.injEq, activityCommand] at he
    refine he ▸ h.check (h.mark s hs) fun ho => ?_
    simp only [Bool.and_eq_true, decide_eq_true_eq] at ho
    exact h.cbwr _ _ _ _ (h.mark s hs) ho.1 ho.2
  | lrwr f d =>
    simp only [Machine.exec, execLrwr, done, Host.Outcome.next.injEq, activityCommand] at he
    exact he ▸ h.check (h.mark s hs) fun _ => h.lrwr _ _ _ (h.mark s hs)
  | vstart v =>
    simp only [Machine.exec, execVstart, done, Host.Outcome.next.injEq] at he
    exact he ▸ h.slot hs fun t ht hr => h.start _ ht hr
  | voff v m =>
    simp only [Machine.exec, execVoff, done, Host.Outcome.next.injEq] at he
    exact he ▸ h.slot hs fun t ht hr => h.check ht fun _ => h.updVoice ht hr (.note _ _)
  | vsil v =>
    simp only [Machine.exec, execVsil, done, Host.Outcome.next.injEq] at he
    refine he ▸ h.slot hs fun t ht hr => h.updVoice ht hr ?_
    split
    · rename_i ha; exact .sil _ ha
    · exact .same _
  | vcancel v =>
    simp only [Machine.exec, execVcancel, done, Host.Outcome.next.injEq] at he
    exact he ▸ h.slot hs fun t ht hr => h.updVoice ht hr (.cancel _)
  | vglide v =>
    simp only [Machine.exec, execVglide, done, Host.Outcome.next.injEq] at he
    exact he ▸ h.slot hs fun t ht hr => h.updVoice ht hr (.glide _ _)
  | ppwr v d =>
    simp only [Machine.exec, execPpwr, done, Host.Outcome.next.injEq] at he
    refine he ▸ h.slot hs fun t ht hr => h.updVoice ht hr ?_
    split
    · exact .press _ _
    · exact .same _
  | rdv v f =>
    simp only [Machine.exec, execRdv, done, Host.Outcome.next.injEq] at he
    subst he
    split
    · exact h.respond _ _ hs
    · exact h.respond _ _ (h.raise _ _ hs)

theorem refill {s : State} (hs : P s) : P (refill s) := by
  unfold Machine.refill State.refillEnabled
  split
  · rename_i he
    simp only [Bool.and_eq_true, decide_eq_true_eq] at he
    split
    · rename_i hi; exact h.idle s hs he.1 hi he.2
    · rename_i hi; exact h.ticks s hs he.1 (by simpa using hi) he.2
  · exact hs

theorem pullByte {s : State} (hs : P s) : P (pullByte s) := by
  unfold Machine.pullByte State.pullEnabled
  split
  · rename_i he
    simp only [Bool.and_eq_true, decide_eq_true_eq] at he
    exact h.pull s hs he.1 he.2
  · exact hs

/-- Every step keeps a property that every effect keeps. -/
theorem step {s t : State} (hs : P s) (he : step s = .next t) : P t := by
  unfold Machine.step at he
  cases hsched : s.sched with
  | nil =>
    rw [takeEvent_nil hsched] at he
    simp only [Host.Outcome.next.injEq] at he
    exact he ▸ hs
  | cons e rest =>
    rw [takeEvent_cons hsched] at he
    have hpop := h.pop s rest hs
    cases e with
    | cmd w =>
      simp only at he
      split at he
      · exact h.exec hpop he
      · simp only [Host.Outcome.next.injEq] at he
        exact he ▸ h.raise _ _ hpop
    | refill => simp only [Host.Outcome.next.injEq] at he; exact he ▸ h.refill hpop
    | pullByte => simp only [Host.Outcome.next.injEq] at he; exact he ▸ h.pullByte hpop
    | reset => simp only [Host.Outcome.next.injEq] at he; exact he ▸ h.resets _ hpop

end Keeps

end Sys2Proof.Machine
end

