-- ==== Sys2Proof/Laws/Tick.lean ====
section
/-! SUPPORT. What each phase of the tick does (R300): the fields it leaves alone, and what it does to a slot. -/

namespace Sys2Proof.Machine

/-! ## Error bits raised over all slots -/

/-- Joining words keeps what all of them lack. -/
theorem and_orAll {bits : List (BitVec 16)} {m : BitVec 16} (h : ∀ b ∈ bits, b &&& m = 0) : orAll bits &&& m = 0 := by
  unfold orAll
  suffices hg : ∀ e : BitVec 16, e &&& m = 0 → bits.foldl (· ||| ·) e &&& m = 0 from hg 0 (by simp)
  intro e he
  induction bits generalizing e with
  | nil => exact he
  | cons b bs ih =>
    refine ih (fun x hx => h x (by simp [hx])) _ ?_
    rw [BitVec.and_or_distrib_right, he, h b (by simp)]
    simp

/-- A bit of a joined word is a bit of one of the words. -/
theorem getLsbD_orAll (bits : List (BitVec 16)) (n : Nat) :
    (orAll bits).getLsbD n = bits.any fun b => b.getLsbD n := by
  unfold orAll
  suffices hg : ∀ e : BitVec 16,
      (bits.foldl (· ||| ·) e).getLsbD n = (e.getLsbD n || bits.any fun b => b.getLsbD n) by simpa using hg 0
  intro e
  induction bits generalizing e with
  | nil => simp
  | cons b bs ih => simp [ih, Bool.or_assoc]

/-- A conditional bit is implemented (R350). -/
theorem ErrBit.maskIf_implemented (b : ErrBit) (c : Bool) : b.maskIf c &&& ~~~0x033F#16 = 0 := by
  cases c
  · simp [ErrBit.maskIf]
  · exact b.mask_implemented

/-- Two conditions for one bit. -/
theorem ErrBit.maskIf_or (b : ErrBit) (c d : Bool) : b.maskIf c ||| b.maskIf d = b.maskIf (c || d) := by
  cases c <;> cases d <;> simp [ErrBit.maskIf]

/-! ## Step 1 and 2 -/

@[simp] theorem delayIn_voices (s : State) : (delayIn s).voices = s.voices := rfl
@[simp] theorem delayIn_cfg (s : State) : (delayIn s).cfg = s.cfg := rfl

/-- All-sound-off over all channels changes the slots only. -/
theorem allSoundOff_eq (s : State) : ∃ vs, allSoundOff s = { s with voices := vs } ∧ vs.length = s.voices.length := by
  unfold allSoundOff
  generalize List.range 16 = cs
  induction cs generalizing s with
  | nil => exact ⟨s.voices, rfl, rfl⟩
  | cons c cs ih =>
    obtain ⟨vs, h1, h2⟩ := ih (s.channelOff (BitVec.ofNat 4 c) true)
    exact ⟨vs, h1, by simpa using h2⟩

/-- The watchdog changes its counter and its enable, the slots, and the bit `WDOG` (R302). -/
theorem watchdog_eq (s : State) : ∃ vs, vs.length = s.voices.length ∧
    watchdog s = { s with
      ascnt := countUp s.ascnt
      asen := s.asen && !s.watchdogFires
      err := s.err ||| ErrBit.wdog.maskIf s.watchdogFires
      voices := vs } := by
  unfold watchdog
  split
  · rename_i hf
    obtain ⟨vs, h1, h2⟩ := allSoundOff_eq { s with ascnt := countUp s.ascnt }
    exact ⟨vs, h2, by rw [h1]; simp [State.raise, ErrBit.maskIf, hf]⟩
  · rename_i hf
    exact ⟨s.voices, rfl, by simp [ErrBit.maskIf, hf]⟩

/-! ## Steps 3 to 6 -/

/-- Steps 3 to 6 leave everything but slots, buses, `ERR`, `FXST` and the counter of free reads alone. -/
theorem promoteAll_eq (s : State) : promoteAll s =
    { s with voices := s.voices.map (promoteVoice s), err := s.err ||| orAll (s.voices.map (promoteErr s)) } := rfl

theorem controlAll_eq (s : State) : controlAll s =
    { s with voices := s.voices.map (controlVoice s), err := s.err ||| orAll (s.voices.map (controlErr s)) } := rfl

/-- What step 5 makes of each slot: an inactive one is as it was, an active one has rendered its chunk and finished. -/
theorem audioVoices_voices (s : State) (vs : List Voice) (b : Buses) (e : BitVec 16) (ctr : Nat) :
    List.Forall₂ (fun v v' => (v.act = false ∧ v' = v) ∨ (v.act = true ∧ ∃ c, v' = v.finish (renderVoice s v c).pos))
      vs (audioVoices s vs b e ctr).voices := by
  induction vs generalizing b e ctr with
  | nil => exact .nil
  | cons v vs ih =>
    unfold audioVoices
    split
    · rename_i h; exact .cons (.inr ⟨h, ctr, rfl⟩) (ih _ _ _)
    · rename_i h; exact .cons (.inl ⟨by simpa using h, rfl⟩) (ih _ _ _)

/-- Step 5 raises at most `VDONE` (R192). -/
theorem audioVoices_err (s : State) (vs : List Voice) (b : Buses) (e : BitVec 16) (ctr : Nat) :
    ∃ c, (audioVoices s vs b e ctr).err = e ||| ErrBit.vdone.maskIf c := by
  induction vs generalizing b e ctr with
  | nil => exact ⟨false, by simp [audioVoices, ErrBit.maskIf]⟩
  | cons v vs ih =>
    unfold audioVoices
    split
    · obtain ⟨c, h⟩ := ih (b.addFrames (renderVoice s v ctr).frames)
        (e ||| v.finishErr (renderVoice s v ctr).pos) (renderVoice s v ctr).ctr
      refine ⟨(v.flags.final || (renderVoice s v ctr).pos.ended) || c, h.trans ?_⟩
      rw [Voice.finishErr, BitVec.or_assoc, ErrBit.maskIf_or]
    · exact ih b e ctr

/-- A voice renders as many frames as it is asked for. -/
theorem renderFrames_length (s : State) (v : Voice) (k j : Nat) (p : Pos) (ctr : Nat) :
    (renderFrames s v k j p ctr).frames.length = k := by
  induction k generalizing j p ctr with
  | zero => rfl
  | succ k ih => simp [renderFrames, ih]

/-- A property of read positions that each advance keeps holds after a chunk (R320). -/
theorem renderFrames_pos {P : Pos → Prop} (s : State) (v : Voice)
    (hP : ∀ p step, P p → P (advance v.desc p step)) (k j : Nat) (p : Pos) (ctr : Nat) (hp : P p) :
    P (renderFrames s v k j p ctr).pos := by
  induction k generalizing j p ctr with
  | zero => exact hp
  | succ k ih => exact ih _ _ _ (hP _ _ hp)

/-- Adding to a bus keeps its length when there is a value for each frame. -/
theorem addToBus_length (bus : List (BitVec 32)) (xs : List Int) (h : xs.length = bus.length) :
    (addToBus bus xs).length = bus.length := by
  simp [addToBus, h]

/-- Step 6 gives arrays of the chunk's length (R330). -/
theorem fitBus_length (n : Nat) (xs : List (BitVec 32)) : (fitBus n xs).length = n := by simp [fitBus]

/-- Step 6 gives delay elements within ±2^28 (R330). -/
theorem clampDelay_bounds (x : BitVec 32) : -268435456 ≤ (clampDelay x).toInt ∧ (clampDelay x).toInt ≤ 268435456 := by
  have h := clamp_bounds (x := x.toInt) (lo := -268435456) (hi := 268435456) (by omega)
  unfold clampDelay
  rw [BitVec.toInt_ofInt, Int.bmod_eq_of_le (by simp; omega) (by simp; omega)]
  exact h

/-! ## Steps 7 and 8 -/

/-- Silence detection writes `SILCNT`, and, when the count is full, `IDLE` and its event bit (R335). -/
theorem silenceDetect_eq (s : State) (silent : Bool) : ∃ c : Bool,
    silenceDetect s silent = { s with
      silcnt := if silent && !s.cmdseen then silUp s.silcnt else 0
      idle := s.idle || c
      err := s.err ||| ErrBit.idle.maskIf c } ∧
    (c = true ↔ silent = true ∧ s.cmdseen = false ∧ silUp s.silcnt = 5) := by
  have h5 : (silUp s.silcnt).toNat = Config.silTicks ↔ silUp s.silcnt = 5 := by
    rw [show Config.silTicks = (5 : BitVec 3).toNat from rfl]
    exact BitVec.toNat_inj
  unfold silenceDetect
  split
  · rename_i hs
    simp only [Bool.and_eq_true, Bool.not_eq_true'] at hs
    split
    · rename_i hc
      exact ⟨true, by simp [State.raise, ErrBit.maskIf, hs], by simp [hs, h5.mp hc]⟩
    · rename_i hc
      exact ⟨false, by simp [ErrBit.maskIf, hs], by simp [hs]; exact fun h => hc (h5.mpr h)⟩
  · rename_i hs
    simp only [Bool.and_eq_true, Bool.not_eq_true', not_and, Bool.not_eq_false] at hs
    refine ⟨false, ?_, ?_⟩
    · simp only [ErrBit.maskIf, Bool.or_false, Bool.false_eq_true, if_false]
      by_cases h1 : silent = true
      · simp [hs h1]
      · simp
    · constructor
      · intro h; cases h
      · rintro ⟨h1, h2, -⟩; rw [hs h1] at h2; cases h2

/-- A chunk of output has four bytes a frame (R334). -/
theorem packFrames_length (ls rs : List (BitVec 16)) (h : ls.length = rs.length) :
    (packFrames ls rs).length = 4 * ls.length := by
  unfold packFrames
  induction ls generalizing rs with
  | nil => simp
  | cons l ls ih =>
    cases rs with
    | nil => simp at h
    | cons r rs =>
      simp only [List.zipWith_cons_cons, List.flatten_cons, List.length_append, List.length_cons] at h ⊢
      rw [ih rs (by omega)]
      simp [frameBytes]; omega

/-- The output samples of the left side of a tick (R333). -/
def State.outL (s : State) : List (BitVec 16) := outSide s.buses.l s.gprevl.toNat s.masterL s.cfg.chunk

/-- The output samples of the right side of a tick (R333). -/
def State.outR (s : State) : List (BitVec 16) := outSide s.buses.r s.gprevr.toNat s.masterR s.cfg.chunk

/-- Steps 7 and 8 and the end of the tick, all they do (R333, R334, R335, R337). -/
theorem tickOutput_eq (s : State) : ∃ c : Bool,
    tickOutput s = { s with
      outbuf := packFrames s.outL s.outR
      gprevl := BitVec.ofNat 16 s.masterL
      gprevr := BitVec.ofNat 16 s.masterR
      silcnt := if allSilent s.outL s.outR && !s.cmdseen then silUp s.silcnt else 0
      idle := s.idle || c
      err := s.err ||| ErrBit.idle.maskIf c
      cmdseen := false
      tickcnt := s.tickcnt + 1
      outrd := 0 } ∧
    (c = true ↔ allSilent s.outL s.outR = true ∧ s.cmdseen = false ∧ silUp s.silcnt = 5) := by
  obtain ⟨c, h1, h2⟩ := silenceDetect_eq (emit s s.outL s.outR) (allSilent s.outL s.outR)
  refine ⟨c, ?_, h2⟩
  show endTick (silenceDetect (emit s s.outL s.outR) (allSilent s.outL s.outR)) = _
  rw [h1]
  rfl

end Sys2Proof.Machine
end

