-- ==== Sys2Proof/Laws/TickFields.lean ====
section
/-! SUPPORT. What the phases of a tick, and the tick as a whole, leave of each field of the state (R300). The generic
lemmas first: the new value is any value, so that no proof computes it. -/

namespace Sys2Proof.Machine

/-! ## Updates of `buses` -/

theorem State.withBuses_cfg (s : State) (x0 : Buses) : ({ s with buses := x0 } : State).cfg = s.cfg := rfl
theorem State.withBuses_run (s : State) (x0 : Buses) : ({ s with buses := x0 } : State).run = s.run := rfl
theorem State.withBuses_idle (s : State) (x0 : Buses) : ({ s with buses := x0 } : State).idle = s.idle := rfl
theorem State.withBuses_silcnt (s : State) (x0 : Buses) : ({ s with buses := x0 } : State).silcnt = s.silcnt := rfl
theorem State.withBuses_tickcnt (s : State) (x0 : Buses) : ({ s with buses := x0 } : State).tickcnt = s.tickcnt := rfl
theorem State.withBuses_cmdseen (s : State) (x0 : Buses) : ({ s with buses := x0 } : State).cmdseen = s.cmdseen := rfl
theorem State.withBuses_asen (s : State) (x0 : Buses) : ({ s with buses := x0 } : State).asen = s.asen := rfl
theorem State.withBuses_ascnt (s : State) (x0 : Buses) : ({ s with buses := x0 } : State).ascnt = s.ascnt := rfl
theorem State.withBuses_err (s : State) (x0 : Buses) : ({ s with buses := x0 } : State).err = s.err := rfl
theorem State.withBuses_ien (s : State) (x0 : Buses) : ({ s with buses := x0 } : State).ien = s.ien := rfl
theorem State.withBuses_mvol (s : State) (x0 : Buses) : ({ s with buses := x0 } : State).mvol = s.mvol := rfl
theorem State.withBuses_mbal (s : State) (x0 : Buses) : ({ s with buses := x0 } : State).mbal = s.mbal := rfl
theorem State.withBuses_mfine (s : State) (x0 : Buses) : ({ s with buses := x0 } : State).mfine = s.mfine := rfl
theorem State.withBuses_mcoarse (s : State) (x0 : Buses) : ({ s with buses := x0 } : State).mcoarse = s.mcoarse := rfl
theorem State.withBuses_gprevl (s : State) (x0 : Buses) : ({ s with buses := x0 } : State).gprevl = s.gprevl := rfl
theorem State.withBuses_gprevr (s : State) (x0 : Buses) : ({ s with buses := x0 } : State).gprevr = s.gprevr := rfl
theorem State.withBuses_wptr (s : State) (x0 : Buses) : ({ s with buses := x0 } : State).wptr = s.wptr := rfl
theorem State.withBuses_rsp (s : State) (x0 : Buses) : ({ s with buses := x0 } : State).rsp = s.rsp := rfl
theorem State.withBuses_fxst (s : State) (x0 : Buses) : ({ s with buses := x0 } : State).fxst = s.fxst := rfl
theorem State.withBuses_lr (s : State) (x0 : Buses) : ({ s with buses := x0 } : State).lr = s.lr := rfl
theorem State.withBuses_chans (s : State) (x0 : Buses) : ({ s with buses := x0 } : State).chans = s.chans := rfl
theorem State.withBuses_voices (s : State) (x0 : Buses) : ({ s with buses := x0 } : State).voices = s.voices := rfl
theorem State.withBuses_wave (s : State) (x0 : Buses) : ({ s with buses := x0 } : State).wave = s.wave := rfl
theorem State.withBuses_wt (s : State) (x0 : Buses) : ({ s with buses := x0 } : State).wt = s.wt := rfl
theorem State.withBuses_cb (s : State) (x0 : Buses) : ({ s with buses := x0 } : State).cb = s.cb := rfl
theorem State.withBuses_outbuf (s : State) (x0 : Buses) : ({ s with buses := x0 } : State).outbuf = s.outbuf := rfl
theorem State.withBuses_outrd (s : State) (x0 : Buses) : ({ s with buses := x0 } : State).outrd = s.outrd := rfl
theorem State.withBuses_sched (s : State) (x0 : Buses) : ({ s with buses := x0 } : State).sched = s.sched := rfl
theorem State.withBuses_sinkGot (s : State) (x0 : Buses) : ({ s with buses := x0 } : State).sinkGot = s.sinkGot := rfl
theorem State.withBuses_epoch (s : State) (x0 : Buses) : ({ s with buses := x0 } : State).epoch = s.epoch := rfl
theorem State.withBuses_freeCtr (s : State) (x0 : Buses) : ({ s with buses := x0 } : State).freeCtr = s.freeCtr := rfl

/-! ## Updates of `voices`, `err` -/

theorem State.withVoicesErr_cfg (s : State) (x0 : List Voice) (x1 : BitVec 16) :
    ({ s with voices := x0, err := x1 } : State).cfg = s.cfg := rfl
theorem State.withVoicesErr_run (s : State) (x0 : List Voice) (x1 : BitVec 16) :
    ({ s with voices := x0, err := x1 } : State).run = s.run := rfl
theorem State.withVoicesErr_idle (s : State) (x0 : List Voice) (x1 : BitVec 16) :
    ({ s with voices := x0, err := x1 } : State).idle = s.idle := rfl
theorem State.withVoicesErr_silcnt (s : State) (x0 : List Voice) (x1 : BitVec 16) :
    ({ s with voices := x0, err := x1 } : State).silcnt = s.silcnt := rfl
theorem State.withVoicesErr_tickcnt (s : State) (x0 : List Voice) (x1 : BitVec 16) :
    ({ s with voices := x0, err := x1 } : State).tickcnt = s.tickcnt := rfl
theorem State.withVoicesErr_cmdseen (s : State) (x0 : List Voice) (x1 : BitVec 16) :
    ({ s with voices := x0, err := x1 } : State).cmdseen = s.cmdseen := rfl
theorem State.withVoicesErr_asen (s : State) (x0 : List Voice) (x1 : BitVec 16) :
    ({ s with voices := x0, err := x1 } : State).asen = s.asen := rfl
theorem State.withVoicesErr_ascnt (s : State) (x0 : List Voice) (x1 : BitVec 16) :
    ({ s with voices := x0, err := x1 } : State).ascnt = s.ascnt := rfl
theorem State.withVoicesErr_ien (s : State) (x0 : List Voice) (x1 : BitVec 16) :
    ({ s with voices := x0, err := x1 } : State).ien = s.ien := rfl
theorem State.withVoicesErr_mvol (s : State) (x0 : List Voice) (x1 : BitVec 16) :
    ({ s with voices := x0, err := x1 } : State).mvol = s.mvol := rfl
theorem State.withVoicesErr_mbal (s : State) (x0 : List Voice) (x1 : BitVec 16) :
    ({ s with voices := x0, err := x1 } : State).mbal = s.mbal := rfl
theorem State.withVoicesErr_mfine (s : State) (x0 : List Voice) (x1 : BitVec 16) :
    ({ s with voices := x0, err := x1 } : State).mfine = s.mfine := rfl
theorem State.withVoicesErr_mcoarse (s : State) (x0 : List Voice) (x1 : BitVec 16) :
    ({ s with voices := x0, err := x1 } : State).mcoarse = s.mcoarse := rfl
theorem State.withVoicesErr_gprevl (s : State) (x0 : List Voice) (x1 : BitVec 16) :
    ({ s with voices := x0, err := x1 } : State).gprevl = s.gprevl := rfl
theorem State.withVoicesErr_gprevr (s : State) (x0 : List Voice) (x1 : BitVec 16) :
    ({ s with voices := x0, err := x1 } : State).gprevr = s.gprevr := rfl
theorem State.withVoicesErr_wptr (s : State) (x0 : List Voice) (x1 : BitVec 16) :
    ({ s with voices := x0, err := x1 } : State).wptr = s.wptr := rfl
theorem State.withVoicesErr_rsp (s : State) (x0 : List Voice) (x1 : BitVec 16) :
    ({ s with voices := x0, err := x1 } : State).rsp = s.rsp := rfl
theorem State.withVoicesErr_fxst (s : State) (x0 : List Voice) (x1 : BitVec 16) :
    ({ s with voices := x0, err := x1 } : State).fxst = s.fxst := rfl
theorem State.withVoicesErr_lr (s : State) (x0 : List Voice) (x1 : BitVec 16) :
    ({ s with voices := x0, err := x1 } : State).lr = s.lr := rfl
theorem State.withVoicesErr_chans (s : State) (x0 : List Voice) (x1 : BitVec 16) :
    ({ s with voices := x0, err := x1 } : State).chans = s.chans := rfl
theorem State.withVoicesErr_wave (s : State) (x0 : List Voice) (x1 : BitVec 16) :
    ({ s with voices := x0, err := x1 } : State).wave = s.wave := rfl
theorem State.withVoicesErr_wt (s : State) (x0 : List Voice) (x1 : BitVec 16) :
    ({ s with voices := x0, err := x1 } : State).wt = s.wt := rfl
theorem State.withVoicesErr_cb (s : State) (x0 : List Voice) (x1 : BitVec 16) :
    ({ s with voices := x0, err := x1 } : State).cb = s.cb := rfl
theorem State.withVoicesErr_buses (s : State) (x0 : List Voice) (x1 : BitVec 16) :
    ({ s with voices := x0, err := x1 } : State).buses = s.buses := rfl
theorem State.withVoicesErr_outbuf (s : State) (x0 : List Voice) (x1 : BitVec 16) :
    ({ s with voices := x0, err := x1 } : State).outbuf = s.outbuf := rfl
theorem State.withVoicesErr_outrd (s : State) (x0 : List Voice) (x1 : BitVec 16) :
    ({ s with voices := x0, err := x1 } : State).outrd = s.outrd := rfl
theorem State.withVoicesErr_sched (s : State) (x0 : List Voice) (x1 : BitVec 16) :
    ({ s with voices := x0, err := x1 } : State).sched = s.sched := rfl
theorem State.withVoicesErr_sinkGot (s : State) (x0 : List Voice) (x1 : BitVec 16) :
    ({ s with voices := x0, err := x1 } : State).sinkGot = s.sinkGot := rfl
theorem State.withVoicesErr_epoch (s : State) (x0 : List Voice) (x1 : BitVec 16) :
    ({ s with voices := x0, err := x1 } : State).epoch = s.epoch := rfl
theorem State.withVoicesErr_freeCtr (s : State) (x0 : List Voice) (x1 : BitVec 16) :
    ({ s with voices := x0, err := x1 } : State).freeCtr = s.freeCtr := rfl

/-! ## Updates of `fxst` -/

theorem State.withFxst_cfg (s : State) (x0 : FxState) : ({ s with fxst := x0 } : State).cfg = s.cfg := rfl
theorem State.withFxst_run (s : State) (x0 : FxState) : ({ s with fxst := x0 } : State).run = s.run := rfl
theorem State.withFxst_idle (s : State) (x0 : FxState) : ({ s with fxst := x0 } : State).idle = s.idle := rfl
theorem State.withFxst_silcnt (s : State) (x0 : FxState) : ({ s with fxst := x0 } : State).silcnt = s.silcnt := rfl
theorem State.withFxst_tickcnt (s : State) (x0 : FxState) : ({ s with fxst := x0 } : State).tickcnt = s.tickcnt := rfl
theorem State.withFxst_cmdseen (s : State) (x0 : FxState) : ({ s with fxst := x0 } : State).cmdseen = s.cmdseen := rfl
theorem State.withFxst_asen (s : State) (x0 : FxState) : ({ s with fxst := x0 } : State).asen = s.asen := rfl
theorem State.withFxst_ascnt (s : State) (x0 : FxState) : ({ s with fxst := x0 } : State).ascnt = s.ascnt := rfl
theorem State.withFxst_err (s : State) (x0 : FxState) : ({ s with fxst := x0 } : State).err = s.err := rfl
theorem State.withFxst_ien (s : State) (x0 : FxState) : ({ s with fxst := x0 } : State).ien = s.ien := rfl
theorem State.withFxst_mvol (s : State) (x0 : FxState) : ({ s with fxst := x0 } : State).mvol = s.mvol := rfl
theorem State.withFxst_mbal (s : State) (x0 : FxState) : ({ s with fxst := x0 } : State).mbal = s.mbal := rfl
theorem State.withFxst_mfine (s : State) (x0 : FxState) : ({ s with fxst := x0 } : State).mfine = s.mfine := rfl
theorem State.withFxst_mcoarse (s : State) (x0 : FxState) : ({ s with fxst := x0 } : State).mcoarse = s.mcoarse := rfl
theorem State.withFxst_gprevl (s : State) (x0 : FxState) : ({ s with fxst := x0 } : State).gprevl = s.gprevl := rfl
theorem State.withFxst_gprevr (s : State) (x0 : FxState) : ({ s with fxst := x0 } : State).gprevr = s.gprevr := rfl
theorem State.withFxst_wptr (s : State) (x0 : FxState) : ({ s with fxst := x0 } : State).wptr = s.wptr := rfl
theorem State.withFxst_rsp (s : State) (x0 : FxState) : ({ s with fxst := x0 } : State).rsp = s.rsp := rfl
theorem State.withFxst_lr (s : State) (x0 : FxState) : ({ s with fxst := x0 } : State).lr = s.lr := rfl
theorem State.withFxst_chans (s : State) (x0 : FxState) : ({ s with fxst := x0 } : State).chans = s.chans := rfl
theorem State.withFxst_voices (s : State) (x0 : FxState) : ({ s with fxst := x0 } : State).voices = s.voices := rfl
theorem State.withFxst_wave (s : State) (x0 : FxState) : ({ s with fxst := x0 } : State).wave = s.wave := rfl
theorem State.withFxst_wt (s : State) (x0 : FxState) : ({ s with fxst := x0 } : State).wt = s.wt := rfl
theorem State.withFxst_cb (s : State) (x0 : FxState) : ({ s with fxst := x0 } : State).cb = s.cb := rfl
theorem State.withFxst_buses (s : State) (x0 : FxState) : ({ s with fxst := x0 } : State).buses = s.buses := rfl
theorem State.withFxst_outbuf (s : State) (x0 : FxState) : ({ s with fxst := x0 } : State).outbuf = s.outbuf := rfl
theorem State.withFxst_outrd (s : State) (x0 : FxState) : ({ s with fxst := x0 } : State).outrd = s.outrd := rfl
theorem State.withFxst_sched (s : State) (x0 : FxState) : ({ s with fxst := x0 } : State).sched = s.sched := rfl
theorem State.withFxst_sinkGot (s : State) (x0 : FxState) : ({ s with fxst := x0 } : State).sinkGot = s.sinkGot := rfl
theorem State.withFxst_epoch (s : State) (x0 : FxState) : ({ s with fxst := x0 } : State).epoch = s.epoch := rfl
theorem State.withFxst_freeCtr (s : State) (x0 : FxState) : ({ s with fxst := x0 } : State).freeCtr = s.freeCtr := rfl

/-! ## Updates of `voices`, `buses`, `err`, `freeCtr` -/

theorem State.withVoicesBusesErrFreeCtr_cfg (s : State) (x0 : List Voice) (x1 : Buses) (x2 : BitVec 16) (x3 : Nat) :
    ({ s with voices := x0, buses := x1, err := x2, freeCtr := x3 } : State).cfg = s.cfg := rfl
theorem State.withVoicesBusesErrFreeCtr_run (s : State) (x0 : List Voice) (x1 : Buses) (x2 : BitVec 16) (x3 : Nat) :
    ({ s with voices := x0, buses := x1, err := x2, freeCtr := x3 } : State).run = s.run := rfl
theorem State.withVoicesBusesErrFreeCtr_idle (s : State) (x0 : List Voice) (x1 : Buses) (x2 : BitVec 16) (x3 : Nat) :
    ({ s with voices := x0, buses := x1, err := x2, freeCtr := x3 } : State).idle = s.idle := rfl
theorem State.withVoicesBusesErrFreeCtr_silcnt (s : State) (x0 : List Voice) (x1 : Buses) (x2 : BitVec 16) (x3 : Nat) :
    ({ s with voices := x0, buses := x1, err := x2, freeCtr := x3 } : State).silcnt = s.silcnt := rfl
theorem State.withVoicesBusesErrFreeCtr_tickcnt (s : State) (x0 : List Voice) (x1 : Buses) (x2 : BitVec 16) (x3 : Nat) :
    ({ s with voices := x0, buses := x1, err := x2, freeCtr := x3 } : State).tickcnt = s.tickcnt := rfl
theorem State.withVoicesBusesErrFreeCtr_cmdseen (s : State) (x0 : List Voice) (x1 : Buses) (x2 : BitVec 16) (x3 : Nat) :
    ({ s with voices := x0, buses := x1, err := x2, freeCtr := x3 } : State).cmdseen = s.cmdseen := rfl
theorem State.withVoicesBusesErrFreeCtr_asen (s : State) (x0 : List Voice) (x1 : Buses) (x2 : BitVec 16) (x3 : Nat) :
    ({ s with voices := x0, buses := x1, err := x2, freeCtr := x3 } : State).asen = s.asen := rfl
theorem State.withVoicesBusesErrFreeCtr_ascnt (s : State) (x0 : List Voice) (x1 : Buses) (x2 : BitVec 16) (x3 : Nat) :
    ({ s with voices := x0, buses := x1, err := x2, freeCtr := x3 } : State).ascnt = s.ascnt := rfl
theorem State.withVoicesBusesErrFreeCtr_ien (s : State) (x0 : List Voice) (x1 : Buses) (x2 : BitVec 16) (x3 : Nat) :
    ({ s with voices := x0, buses := x1, err := x2, freeCtr := x3 } : State).ien = s.ien := rfl
theorem State.withVoicesBusesErrFreeCtr_mvol (s : State) (x0 : List Voice) (x1 : Buses) (x2 : BitVec 16) (x3 : Nat) :
    ({ s with voices := x0, buses := x1, err := x2, freeCtr := x3 } : State).mvol = s.mvol := rfl
theorem State.withVoicesBusesErrFreeCtr_mbal (s : State) (x0 : List Voice) (x1 : Buses) (x2 : BitVec 16) (x3 : Nat) :
    ({ s with voices := x0, buses := x1, err := x2, freeCtr := x3 } : State).mbal = s.mbal := rfl
theorem State.withVoicesBusesErrFreeCtr_mfine (s : State) (x0 : List Voice) (x1 : Buses) (x2 : BitVec 16) (x3 : Nat) :
    ({ s with voices := x0, buses := x1, err := x2, freeCtr := x3 } : State).mfine = s.mfine := rfl
theorem State.withVoicesBusesErrFreeCtr_mcoarse (s : State) (x0 : List Voice) (x1 : Buses) (x2 : BitVec 16) (x3 : Nat) :
    ({ s with voices := x0, buses := x1, err := x2, freeCtr := x3 } : State).mcoarse = s.mcoarse := rfl
theorem State.withVoicesBusesErrFreeCtr_gprevl (s : State) (x0 : List Voice) (x1 : Buses) (x2 : BitVec 16) (x3 : Nat) :
    ({ s with voices := x0, buses := x1, err := x2, freeCtr := x3 } : State).gprevl = s.gprevl := rfl
theorem State.withVoicesBusesErrFreeCtr_gprevr (s : State) (x0 : List Voice) (x1 : Buses) (x2 : BitVec 16) (x3 : Nat) :
    ({ s with voices := x0, buses := x1, err := x2, freeCtr := x3 } : State).gprevr = s.gprevr := rfl
theorem State.withVoicesBusesErrFreeCtr_wptr (s : State) (x0 : List Voice) (x1 : Buses) (x2 : BitVec 16) (x3 : Nat) :
    ({ s with voices := x0, buses := x1, err := x2, freeCtr := x3 } : State).wptr = s.wptr := rfl
theorem State.withVoicesBusesErrFreeCtr_rsp (s : State) (x0 : List Voice) (x1 : Buses) (x2 : BitVec 16) (x3 : Nat) :
    ({ s with voices := x0, buses := x1, err := x2, freeCtr := x3 } : State).rsp = s.rsp := rfl
theorem State.withVoicesBusesErrFreeCtr_fxst (s : State) (x0 : List Voice) (x1 : Buses) (x2 : BitVec 16) (x3 : Nat) :
    ({ s with voices := x0, buses := x1, err := x2, freeCtr := x3 } : State).fxst = s.fxst := rfl
theorem State.withVoicesBusesErrFreeCtr_lr (s : State) (x0 : List Voice) (x1 : Buses) (x2 : BitVec 16) (x3 : Nat) :
    ({ s with voices := x0, buses := x1, err := x2, freeCtr := x3 } : State).lr = s.lr := rfl
theorem State.withVoicesBusesErrFreeCtr_chans (s : State) (x0 : List Voice) (x1 : Buses) (x2 : BitVec 16) (x3 : Nat) :
    ({ s with voices := x0, buses := x1, err := x2, freeCtr := x3 } : State).chans = s.chans := rfl
theorem State.withVoicesBusesErrFreeCtr_wave (s : State) (x0 : List Voice) (x1 : Buses) (x2 : BitVec 16) (x3 : Nat) :
    ({ s with voices := x0, buses := x1, err := x2, freeCtr := x3 } : State).wave = s.wave := rfl
theorem State.withVoicesBusesErrFreeCtr_wt (s : State) (x0 : List Voice) (x1 : Buses) (x2 : BitVec 16) (x3 : Nat) :
    ({ s with voices := x0, buses := x1, err := x2, freeCtr := x3 } : State).wt = s.wt := rfl
theorem State.withVoicesBusesErrFreeCtr_cb (s : State) (x0 : List Voice) (x1 : Buses) (x2 : BitVec 16) (x3 : Nat) :
    ({ s with voices := x0, buses := x1, err := x2, freeCtr := x3 } : State).cb = s.cb := rfl
theorem State.withVoicesBusesErrFreeCtr_outbuf (s : State) (x0 : List Voice) (x1 : Buses) (x2 : BitVec 16) (x3 : Nat) :
    ({ s with voices := x0, buses := x1, err := x2, freeCtr := x3 } : State).outbuf = s.outbuf := rfl
theorem State.withVoicesBusesErrFreeCtr_outrd (s : State) (x0 : List Voice) (x1 : Buses) (x2 : BitVec 16) (x3 : Nat) :
    ({ s with voices := x0, buses := x1, err := x2, freeCtr := x3 } : State).outrd = s.outrd := rfl
theorem State.withVoicesBusesErrFreeCtr_sched (s : State) (x0 : List Voice) (x1 : Buses) (x2 : BitVec 16) (x3 : Nat) :
    ({ s with voices := x0, buses := x1, err := x2, freeCtr := x3 } : State).sched = s.sched := rfl
theorem State.withVoicesBusesErrFreeCtr_sinkGot (s : State) (x0 : List Voice) (x1 : Buses) (x2 : BitVec 16) (x3 : Nat) :
    ({ s with voices := x0, buses := x1, err := x2, freeCtr := x3 } : State).sinkGot = s.sinkGot := rfl
theorem State.withVoicesBusesErrFreeCtr_epoch (s : State) (x0 : List Voice) (x1 : Buses) (x2 : BitVec 16) (x3 : Nat) :
    ({ s with voices := x0, buses := x1, err := x2, freeCtr := x3 } : State).epoch = s.epoch := rfl

/-! ## Updates of `fxst`, `buses` -/

theorem State.withFxstBuses_cfg (s : State) (x0 : FxState) (x1 : Buses) :
    ({ s with fxst := x0, buses := x1 } : State).cfg = s.cfg := rfl
theorem State.withFxstBuses_run (s : State) (x0 : FxState) (x1 : Buses) :
    ({ s with fxst := x0, buses := x1 } : State).run = s.run := rfl
theorem State.withFxstBuses_idle (s : State) (x0 : FxState) (x1 : Buses) :
    ({ s with fxst := x0, buses := x1 } : State).idle = s.idle := rfl
theorem State.withFxstBuses_silcnt (s : State) (x0 : FxState) (x1 : Buses) :
    ({ s with fxst := x0, buses := x1 } : State).silcnt = s.silcnt := rfl
theorem State.withFxstBuses_tickcnt (s : State) (x0 : FxState) (x1 : Buses) :
    ({ s with fxst := x0, buses := x1 } : State).tickcnt = s.tickcnt := rfl
theorem State.withFxstBuses_cmdseen (s : State) (x0 : FxState) (x1 : Buses) :
    ({ s with fxst := x0, buses := x1 } : State).cmdseen = s.cmdseen := rfl
theorem State.withFxstBuses_asen (s : State) (x0 : FxState) (x1 : Buses) :
    ({ s with fxst := x0, buses := x1 } : State).asen = s.asen := rfl
theorem State.withFxstBuses_ascnt (s : State) (x0 : FxState) (x1 : Buses) :
    ({ s with fxst := x0, buses := x1 } : State).ascnt = s.ascnt := rfl
theorem State.withFxstBuses_err (s : State) (x0 : FxState) (x1 : Buses) :
    ({ s with fxst := x0, buses := x1 } : State).err = s.err := rfl
theorem State.withFxstBuses_ien (s : State) (x0 : FxState) (x1 : Buses) :
    ({ s with fxst := x0, buses := x1 } : State).ien = s.ien := rfl
theorem State.withFxstBuses_mvol (s : State) (x0 : FxState) (x1 : Buses) :
    ({ s with fxst := x0, buses := x1 } : State).mvol = s.mvol := rfl
theorem State.withFxstBuses_mbal (s : State) (x0 : FxState) (x1 : Buses) :
    ({ s with fxst := x0, buses := x1 } : State).mbal = s.mbal := rfl
theorem State.withFxstBuses_mfine (s : State) (x0 : FxState) (x1 : Buses) :
    ({ s with fxst := x0, buses := x1 } : State).mfine = s.mfine := rfl
theorem State.withFxstBuses_mcoarse (s : State) (x0 : FxState) (x1 : Buses) :
    ({ s with fxst := x0, buses := x1 } : State).mcoarse = s.mcoarse := rfl
theorem State.withFxstBuses_gprevl (s : State) (x0 : FxState) (x1 : Buses) :
    ({ s with fxst := x0, buses := x1 } : State).gprevl = s.gprevl := rfl
theorem State.withFxstBuses_gprevr (s : State) (x0 : FxState) (x1 : Buses) :
    ({ s with fxst := x0, buses := x1 } : State).gprevr = s.gprevr := rfl
theorem State.withFxstBuses_wptr (s : State) (x0 : FxState) (x1 : Buses) :
    ({ s with fxst := x0, buses := x1 } : State).wptr = s.wptr := rfl
theorem State.withFxstBuses_rsp (s : State) (x0 : FxState) (x1 : Buses) :
    ({ s with fxst := x0, buses := x1 } : State).rsp = s.rsp := rfl
theorem State.withFxstBuses_lr (s : State) (x0 : FxState) (x1 : Buses) :
    ({ s with fxst := x0, buses := x1 } : State).lr = s.lr := rfl
theorem State.withFxstBuses_chans (s : State) (x0 : FxState) (x1 : Buses) :
    ({ s with fxst := x0, buses := x1 } : State).chans = s.chans := rfl
theorem State.withFxstBuses_voices (s : State) (x0 : FxState) (x1 : Buses) :
    ({ s with fxst := x0, buses := x1 } : State).voices = s.voices := rfl
theorem State.withFxstBuses_wave (s : State) (x0 : FxState) (x1 : Buses) :
    ({ s with fxst := x0, buses := x1 } : State).wave = s.wave := rfl
theorem State.withFxstBuses_wt (s : State) (x0 : FxState) (x1 : Buses) :
    ({ s with fxst := x0, buses := x1 } : State).wt = s.wt := rfl
theorem State.withFxstBuses_cb (s : State) (x0 : FxState) (x1 : Buses) :
    ({ s with fxst := x0, buses := x1 } : State).cb = s.cb := rfl
theorem State.withFxstBuses_outbuf (s : State) (x0 : FxState) (x1 : Buses) :
    ({ s with fxst := x0, buses := x1 } : State).outbuf = s.outbuf := rfl
theorem State.withFxstBuses_outrd (s : State) (x0 : FxState) (x1 : Buses) :
    ({ s with fxst := x0, buses := x1 } : State).outrd = s.outrd := rfl
theorem State.withFxstBuses_sched (s : State) (x0 : FxState) (x1 : Buses) :
    ({ s with fxst := x0, buses := x1 } : State).sched = s.sched := rfl
theorem State.withFxstBuses_sinkGot (s : State) (x0 : FxState) (x1 : Buses) :
    ({ s with fxst := x0, buses := x1 } : State).sinkGot = s.sinkGot := rfl
theorem State.withFxstBuses_epoch (s : State) (x0 : FxState) (x1 : Buses) :
    ({ s with fxst := x0, buses := x1 } : State).epoch = s.epoch := rfl
theorem State.withFxstBuses_freeCtr (s : State) (x0 : FxState) (x1 : Buses) :
    ({ s with fxst := x0, buses := x1 } : State).freeCtr = s.freeCtr := rfl

/-! ## `delayIn` -/

@[simp] theorem delayIn_run (s : State) : (delayIn s).run = s.run := State.withBuses_run s _
@[simp] theorem delayIn_idle (s : State) : (delayIn s).idle = s.idle := State.withBuses_idle s _
@[simp] theorem delayIn_silcnt (s : State) : (delayIn s).silcnt = s.silcnt := State.withBuses_silcnt s _
@[simp] theorem delayIn_tickcnt (s : State) : (delayIn s).tickcnt = s.tickcnt := State.withBuses_tickcnt s _
@[simp] theorem delayIn_cmdseen (s : State) : (delayIn s).cmdseen = s.cmdseen := State.withBuses_cmdseen s _
@[simp] theorem delayIn_asen (s : State) : (delayIn s).asen = s.asen := State.withBuses_asen s _
@[simp] theorem delayIn_ascnt (s : State) : (delayIn s).ascnt = s.ascnt := State.withBuses_ascnt s _
@[simp] theorem delayIn_err (s : State) : (delayIn s).err = s.err := State.withBuses_err s _
@[simp] theorem delayIn_ien (s : State) : (delayIn s).ien = s.ien := State.withBuses_ien s _
@[simp] theorem delayIn_mvol (s : State) : (delayIn s).mvol = s.mvol := State.withBuses_mvol s _
@[simp] theorem delayIn_mbal (s : State) : (delayIn s).mbal = s.mbal := State.withBuses_mbal s _
@[simp] theorem delayIn_mfine (s : State) : (delayIn s).mfine = s.mfine := State.withBuses_mfine s _
@[simp] theorem delayIn_mcoarse (s : State) : (delayIn s).mcoarse = s.mcoarse := State.withBuses_mcoarse s _
@[simp] theorem delayIn_gprevl (s : State) : (delayIn s).gprevl = s.gprevl := State.withBuses_gprevl s _
@[simp] theorem delayIn_gprevr (s : State) : (delayIn s).gprevr = s.gprevr := State.withBuses_gprevr s _
@[simp] theorem delayIn_wptr (s : State) : (delayIn s).wptr = s.wptr := State.withBuses_wptr s _
@[simp] theorem delayIn_rsp (s : State) : (delayIn s).rsp = s.rsp := State.withBuses_rsp s _
@[simp] theorem delayIn_fxst (s : State) : (delayIn s).fxst = s.fxst := State.withBuses_fxst s _
@[simp] theorem delayIn_lr (s : State) : (delayIn s).lr = s.lr := State.withBuses_lr s _
@[simp] theorem delayIn_chans (s : State) : (delayIn s).chans = s.chans := State.withBuses_chans s _
@[simp] theorem delayIn_wave (s : State) : (delayIn s).wave = s.wave := State.withBuses_wave s _
@[simp] theorem delayIn_wt (s : State) : (delayIn s).wt = s.wt := State.withBuses_wt s _
@[simp] theorem delayIn_cb (s : State) : (delayIn s).cb = s.cb := State.withBuses_cb s _
@[simp] theorem delayIn_outbuf (s : State) : (delayIn s).outbuf = s.outbuf := State.withBuses_outbuf s _
@[simp] theorem delayIn_outrd (s : State) : (delayIn s).outrd = s.outrd := State.withBuses_outrd s _
@[simp] theorem delayIn_sched (s : State) : (delayIn s).sched = s.sched := State.withBuses_sched s _
@[simp] theorem delayIn_sinkGot (s : State) : (delayIn s).sinkGot = s.sinkGot := State.withBuses_sinkGot s _
@[simp] theorem delayIn_epoch (s : State) : (delayIn s).epoch = s.epoch := State.withBuses_epoch s _
@[simp] theorem delayIn_freeCtr (s : State) : (delayIn s).freeCtr = s.freeCtr := State.withBuses_freeCtr s _

/-! ## `promoteAll` -/

@[simp] theorem promoteAll_cfg (s : State) : (promoteAll s).cfg = s.cfg := State.withVoicesErr_cfg s _ _
@[simp] theorem promoteAll_run (s : State) : (promoteAll s).run = s.run := State.withVoicesErr_run s _ _
@[simp] theorem promoteAll_idle (s : State) : (promoteAll s).idle = s.idle := State.withVoicesErr_idle s _ _
@[simp] theorem promoteAll_silcnt (s : State) : (promoteAll s).silcnt = s.silcnt := State.withVoicesErr_silcnt s _ _
@[simp] theorem promoteAll_tickcnt (s : State) : (promoteAll s).tickcnt = s.tickcnt := State.withVoicesErr_tickcnt s _ _
@[simp] theorem promoteAll_cmdseen (s : State) : (promoteAll s).cmdseen = s.cmdseen := State.withVoicesErr_cmdseen s _ _
@[simp] theorem promoteAll_asen (s : State) : (promoteAll s).asen = s.asen := State.withVoicesErr_asen s _ _
@[simp] theorem promoteAll_ascnt (s : State) : (promoteAll s).ascnt = s.ascnt := State.withVoicesErr_ascnt s _ _
@[simp] theorem promoteAll_ien (s : State) : (promoteAll s).ien = s.ien := State.withVoicesErr_ien s _ _
@[simp] theorem promoteAll_mvol (s : State) : (promoteAll s).mvol = s.mvol := State.withVoicesErr_mvol s _ _
@[simp] theorem promoteAll_mbal (s : State) : (promoteAll s).mbal = s.mbal := State.withVoicesErr_mbal s _ _
@[simp] theorem promoteAll_mfine (s : State) : (promoteAll s).mfine = s.mfine := State.withVoicesErr_mfine s _ _
@[simp] theorem promoteAll_mcoarse (s : State) : (promoteAll s).mcoarse = s.mcoarse := State.withVoicesErr_mcoarse s _ _
@[simp] theorem promoteAll_gprevl (s : State) : (promoteAll s).gprevl = s.gprevl := State.withVoicesErr_gprevl s _ _
@[simp] theorem promoteAll_gprevr (s : State) : (promoteAll s).gprevr = s.gprevr := State.withVoicesErr_gprevr s _ _
@[simp] theorem promoteAll_wptr (s : State) : (promoteAll s).wptr = s.wptr := State.withVoicesErr_wptr s _ _
@[simp] theorem promoteAll_rsp (s : State) : (promoteAll s).rsp = s.rsp := State.withVoicesErr_rsp s _ _
@[simp] theorem promoteAll_fxst (s : State) : (promoteAll s).fxst = s.fxst := State.withVoicesErr_fxst s _ _
@[simp] theorem promoteAll_lr (s : State) : (promoteAll s).lr = s.lr := State.withVoicesErr_lr s _ _
@[simp] theorem promoteAll_chans (s : State) : (promoteAll s).chans = s.chans := State.withVoicesErr_chans s _ _
@[simp] theorem promoteAll_wave (s : State) : (promoteAll s).wave = s.wave := State.withVoicesErr_wave s _ _
@[simp] theorem promoteAll_wt (s : State) : (promoteAll s).wt = s.wt := State.withVoicesErr_wt s _ _
@[simp] theorem promoteAll_cb (s : State) : (promoteAll s).cb = s.cb := State.withVoicesErr_cb s _ _
@[simp] theorem promoteAll_buses (s : State) : (promoteAll s).buses = s.buses := State.withVoicesErr_buses s _ _
@[simp] theorem promoteAll_outbuf (s : State) : (promoteAll s).outbuf = s.outbuf := State.withVoicesErr_outbuf s _ _
@[simp] theorem promoteAll_outrd (s : State) : (promoteAll s).outrd = s.outrd := State.withVoicesErr_outrd s _ _
@[simp] theorem promoteAll_sched (s : State) : (promoteAll s).sched = s.sched := State.withVoicesErr_sched s _ _
@[simp] theorem promoteAll_sinkGot (s : State) : (promoteAll s).sinkGot = s.sinkGot := State.withVoicesErr_sinkGot s _ _
@[simp] theorem promoteAll_epoch (s : State) : (promoteAll s).epoch = s.epoch := State.withVoicesErr_epoch s _ _
@[simp] theorem promoteAll_freeCtr (s : State) : (promoteAll s).freeCtr = s.freeCtr := State.withVoicesErr_freeCtr s _ _

/-! ## `controlAll` -/

@[simp] theorem controlAll_cfg (s : State) : (controlAll s).cfg = s.cfg := State.withVoicesErr_cfg s _ _
@[simp] theorem controlAll_run (s : State) : (controlAll s).run = s.run := State.withVoicesErr_run s _ _
@[simp] theorem controlAll_idle (s : State) : (controlAll s).idle = s.idle := State.withVoicesErr_idle s _ _
@[simp] theorem controlAll_silcnt (s : State) : (controlAll s).silcnt = s.silcnt := State.withVoicesErr_silcnt s _ _
@[simp] theorem controlAll_tickcnt (s : State) : (controlAll s).tickcnt = s.tickcnt := State.withVoicesErr_tickcnt s _ _
@[simp] theorem controlAll_cmdseen (s : State) : (controlAll s).cmdseen = s.cmdseen := State.withVoicesErr_cmdseen s _ _
@[simp] theorem controlAll_asen (s : State) : (controlAll s).asen = s.asen := State.withVoicesErr_asen s _ _
@[simp] theorem controlAll_ascnt (s : State) : (controlAll s).ascnt = s.ascnt := State.withVoicesErr_ascnt s _ _
@[simp] theorem controlAll_ien (s : State) : (controlAll s).ien = s.ien := State.withVoicesErr_ien s _ _
@[simp] theorem controlAll_mvol (s : State) : (controlAll s).mvol = s.mvol := State.withVoicesErr_mvol s _ _
@[simp] theorem controlAll_mbal (s : State) : (controlAll s).mbal = s.mbal := State.withVoicesErr_mbal s _ _
@[simp] theorem controlAll_mfine (s : State) : (controlAll s).mfine = s.mfine := State.withVoicesErr_mfine s _ _
@[simp] theorem controlAll_mcoarse (s : State) : (controlAll s).mcoarse = s.mcoarse := State.withVoicesErr_mcoarse s _ _
@[simp] theorem controlAll_gprevl (s : State) : (controlAll s).gprevl = s.gprevl := State.withVoicesErr_gprevl s _ _
@[simp] theorem controlAll_gprevr (s : State) : (controlAll s).gprevr = s.gprevr := State.withVoicesErr_gprevr s _ _
@[simp] theorem controlAll_wptr (s : State) : (controlAll s).wptr = s.wptr := State.withVoicesErr_wptr s _ _
@[simp] theorem controlAll_rsp (s : State) : (controlAll s).rsp = s.rsp := State.withVoicesErr_rsp s _ _
@[simp] theorem controlAll_fxst (s : State) : (controlAll s).fxst = s.fxst := State.withVoicesErr_fxst s _ _
@[simp] theorem controlAll_lr (s : State) : (controlAll s).lr = s.lr := State.withVoicesErr_lr s _ _
@[simp] theorem controlAll_chans (s : State) : (controlAll s).chans = s.chans := State.withVoicesErr_chans s _ _
@[simp] theorem controlAll_wave (s : State) : (controlAll s).wave = s.wave := State.withVoicesErr_wave s _ _
@[simp] theorem controlAll_wt (s : State) : (controlAll s).wt = s.wt := State.withVoicesErr_wt s _ _
@[simp] theorem controlAll_cb (s : State) : (controlAll s).cb = s.cb := State.withVoicesErr_cb s _ _
@[simp] theorem controlAll_buses (s : State) : (controlAll s).buses = s.buses := State.withVoicesErr_buses s _ _
@[simp] theorem controlAll_outbuf (s : State) : (controlAll s).outbuf = s.outbuf := State.withVoicesErr_outbuf s _ _
@[simp] theorem controlAll_outrd (s : State) : (controlAll s).outrd = s.outrd := State.withVoicesErr_outrd s _ _
@[simp] theorem controlAll_sched (s : State) : (controlAll s).sched = s.sched := State.withVoicesErr_sched s _ _
@[simp] theorem controlAll_sinkGot (s : State) : (controlAll s).sinkGot = s.sinkGot := State.withVoicesErr_sinkGot s _ _
@[simp] theorem controlAll_epoch (s : State) : (controlAll s).epoch = s.epoch := State.withVoicesErr_epoch s _ _
@[simp] theorem controlAll_freeCtr (s : State) : (controlAll s).freeCtr = s.freeCtr := State.withVoicesErr_freeCtr s _ _

/-! ## `fxControl` -/

@[simp] theorem fxControl_cfg (s : State) : (fxControl s).cfg = s.cfg := State.withFxst_cfg s _
@[simp] theorem fxControl_run (s : State) : (fxControl s).run = s.run := State.withFxst_run s _
@[simp] theorem fxControl_idle (s : State) : (fxControl s).idle = s.idle := State.withFxst_idle s _
@[simp] theorem fxControl_silcnt (s : State) : (fxControl s).silcnt = s.silcnt := State.withFxst_silcnt s _
@[simp] theorem fxControl_tickcnt (s : State) : (fxControl s).tickcnt = s.tickcnt := State.withFxst_tickcnt s _
@[simp] theorem fxControl_cmdseen (s : State) : (fxControl s).cmdseen = s.cmdseen := State.withFxst_cmdseen s _
@[simp] theorem fxControl_asen (s : State) : (fxControl s).asen = s.asen := State.withFxst_asen s _
@[simp] theorem fxControl_ascnt (s : State) : (fxControl s).ascnt = s.ascnt := State.withFxst_ascnt s _
@[simp] theorem fxControl_err (s : State) : (fxControl s).err = s.err := State.withFxst_err s _
@[simp] theorem fxControl_ien (s : State) : (fxControl s).ien = s.ien := State.withFxst_ien s _
@[simp] theorem fxControl_mvol (s : State) : (fxControl s).mvol = s.mvol := State.withFxst_mvol s _
@[simp] theorem fxControl_mbal (s : State) : (fxControl s).mbal = s.mbal := State.withFxst_mbal s _
@[simp] theorem fxControl_mfine (s : State) : (fxControl s).mfine = s.mfine := State.withFxst_mfine s _
@[simp] theorem fxControl_mcoarse (s : State) : (fxControl s).mcoarse = s.mcoarse := State.withFxst_mcoarse s _
@[simp] theorem fxControl_gprevl (s : State) : (fxControl s).gprevl = s.gprevl := State.withFxst_gprevl s _
@[simp] theorem fxControl_gprevr (s : State) : (fxControl s).gprevr = s.gprevr := State.withFxst_gprevr s _
@[simp] theorem fxControl_wptr (s : State) : (fxControl s).wptr = s.wptr := State.withFxst_wptr s _
@[simp] theorem fxControl_rsp (s : State) : (fxControl s).rsp = s.rsp := State.withFxst_rsp s _
@[simp] theorem fxControl_lr (s : State) : (fxControl s).lr = s.lr := State.withFxst_lr s _
@[simp] theorem fxControl_chans (s : State) : (fxControl s).chans = s.chans := State.withFxst_chans s _
@[simp] theorem fxControl_voices (s : State) : (fxControl s).voices = s.voices := State.withFxst_voices s _
@[simp] theorem fxControl_wave (s : State) : (fxControl s).wave = s.wave := State.withFxst_wave s _
@[simp] theorem fxControl_wt (s : State) : (fxControl s).wt = s.wt := State.withFxst_wt s _
@[simp] theorem fxControl_cb (s : State) : (fxControl s).cb = s.cb := State.withFxst_cb s _
@[simp] theorem fxControl_buses (s : State) : (fxControl s).buses = s.buses := State.withFxst_buses s _
@[simp] theorem fxControl_outbuf (s : State) : (fxControl s).outbuf = s.outbuf := State.withFxst_outbuf s _
@[simp] theorem fxControl_outrd (s : State) : (fxControl s).outrd = s.outrd := State.withFxst_outrd s _
@[simp] theorem fxControl_sched (s : State) : (fxControl s).sched = s.sched := State.withFxst_sched s _
@[simp] theorem fxControl_sinkGot (s : State) : (fxControl s).sinkGot = s.sinkGot := State.withFxst_sinkGot s _
@[simp] theorem fxControl_epoch (s : State) : (fxControl s).epoch = s.epoch := State.withFxst_epoch s _
@[simp] theorem fxControl_freeCtr (s : State) : (fxControl s).freeCtr = s.freeCtr := State.withFxst_freeCtr s _

/-! ## `audioAll` -/

@[simp] theorem audioAll_cfg (s : State) : (audioAll s).cfg = s.cfg := State.withVoicesBusesErrFreeCtr_cfg s _ _ _ _
@[simp] theorem audioAll_run (s : State) : (audioAll s).run = s.run := State.withVoicesBusesErrFreeCtr_run s _ _ _ _
@[simp] theorem audioAll_idle (s : State) : (audioAll s).idle = s.idle := State.withVoicesBusesErrFreeCtr_idle s _ _ _ _
@[simp] theorem audioAll_silcnt (s : State) : (audioAll s).silcnt = s.silcnt := State.withVoicesBusesErrFreeCtr_silcnt s _ _ _ _
@[simp] theorem audioAll_tickcnt (s : State) : (audioAll s).tickcnt = s.tickcnt := State.withVoicesBusesErrFreeCtr_tickcnt s _ _ _ _
@[simp] theorem audioAll_cmdseen (s : State) : (audioAll s).cmdseen = s.cmdseen := State.withVoicesBusesErrFreeCtr_cmdseen s _ _ _ _
@[simp] theorem audioAll_asen (s : State) : (audioAll s).asen = s.asen := State.withVoicesBusesErrFreeCtr_asen s _ _ _ _
@[simp] theorem audioAll_ascnt (s : State) : (audioAll s).ascnt = s.ascnt := State.withVoicesBusesErrFreeCtr_ascnt s _ _ _ _
@[simp] theorem audioAll_ien (s : State) : (audioAll s).ien = s.ien := State.withVoicesBusesErrFreeCtr_ien s _ _ _ _
@[simp] theorem audioAll_mvol (s : State) : (audioAll s).mvol = s.mvol := State.withVoicesBusesErrFreeCtr_mvol s _ _ _ _
@[simp] theorem audioAll_mbal (s : State) : (audioAll s).mbal = s.mbal := State.withVoicesBusesErrFreeCtr_mbal s _ _ _ _
@[simp] theorem audioAll_mfine (s : State) : (audioAll s).mfine = s.mfine := State.withVoicesBusesErrFreeCtr_mfine s _ _ _ _
@[simp] theorem audioAll_mcoarse (s : State) : (audioAll s).mcoarse = s.mcoarse := State.withVoicesBusesErrFreeCtr_mcoarse s _ _ _ _
@[simp] theorem audioAll_gprevl (s : State) : (audioAll s).gprevl = s.gprevl := State.withVoicesBusesErrFreeCtr_gprevl s _ _ _ _
@[simp] theorem audioAll_gprevr (s : State) : (audioAll s).gprevr = s.gprevr := State.withVoicesBusesErrFreeCtr_gprevr s _ _ _ _
@[simp] theorem audioAll_wptr (s : State) : (audioAll s).wptr = s.wptr := State.withVoicesBusesErrFreeCtr_wptr s _ _ _ _
@[simp] theorem audioAll_rsp (s : State) : (audioAll s).rsp = s.rsp := State.withVoicesBusesErrFreeCtr_rsp s _ _ _ _
@[simp] theorem audioAll_fxst (s : State) : (audioAll s).fxst = s.fxst := State.withVoicesBusesErrFreeCtr_fxst s _ _ _ _
@[simp] theorem audioAll_lr (s : State) : (audioAll s).lr = s.lr := State.withVoicesBusesErrFreeCtr_lr s _ _ _ _
@[simp] theorem audioAll_chans (s : State) : (audioAll s).chans = s.chans := State.withVoicesBusesErrFreeCtr_chans s _ _ _ _
@[simp] theorem audioAll_wave (s : State) : (audioAll s).wave = s.wave := State.withVoicesBusesErrFreeCtr_wave s _ _ _ _
@[simp] theorem audioAll_wt (s : State) : (audioAll s).wt = s.wt := State.withVoicesBusesErrFreeCtr_wt s _ _ _ _
@[simp] theorem audioAll_cb (s : State) : (audioAll s).cb = s.cb := State.withVoicesBusesErrFreeCtr_cb s _ _ _ _
@[simp] theorem audioAll_outbuf (s : State) : (audioAll s).outbuf = s.outbuf := State.withVoicesBusesErrFreeCtr_outbuf s _ _ _ _
@[simp] theorem audioAll_outrd (s : State) : (audioAll s).outrd = s.outrd := State.withVoicesBusesErrFreeCtr_outrd s _ _ _ _
@[simp] theorem audioAll_sched (s : State) : (audioAll s).sched = s.sched := State.withVoicesBusesErrFreeCtr_sched s _ _ _ _
@[simp] theorem audioAll_sinkGot (s : State) : (audioAll s).sinkGot = s.sinkGot := State.withVoicesBusesErrFreeCtr_sinkGot s _ _ _ _
@[simp] theorem audioAll_epoch (s : State) : (audioAll s).epoch = s.epoch := State.withVoicesBusesErrFreeCtr_epoch s _ _ _ _

/-! ## `monoFold` -/

@[simp] theorem monoFold_cfg (s : State) : (monoFold s).cfg = s.cfg := State.withBuses_cfg s _
@[simp] theorem monoFold_run (s : State) : (monoFold s).run = s.run := State.withBuses_run s _
@[simp] theorem monoFold_idle (s : State) : (monoFold s).idle = s.idle := State.withBuses_idle s _
@[simp] theorem monoFold_silcnt (s : State) : (monoFold s).silcnt = s.silcnt := State.withBuses_silcnt s _
@[simp] theorem monoFold_tickcnt (s : State) : (monoFold s).tickcnt = s.tickcnt := State.withBuses_tickcnt s _
@[simp] theorem monoFold_cmdseen (s : State) : (monoFold s).cmdseen = s.cmdseen := State.withBuses_cmdseen s _
@[simp] theorem monoFold_asen (s : State) : (monoFold s).asen = s.asen := State.withBuses_asen s _
@[simp] theorem monoFold_ascnt (s : State) : (monoFold s).ascnt = s.ascnt := State.withBuses_ascnt s _
@[simp] theorem monoFold_err (s : State) : (monoFold s).err = s.err := State.withBuses_err s _
@[simp] theorem monoFold_ien (s : State) : (monoFold s).ien = s.ien := State.withBuses_ien s _
@[simp] theorem monoFold_mvol (s : State) : (monoFold s).mvol = s.mvol := State.withBuses_mvol s _
@[simp] theorem monoFold_mbal (s : State) : (monoFold s).mbal = s.mbal := State.withBuses_mbal s _
@[simp] theorem monoFold_mfine (s : State) : (monoFold s).mfine = s.mfine := State.withBuses_mfine s _
@[simp] theorem monoFold_mcoarse (s : State) : (monoFold s).mcoarse = s.mcoarse := State.withBuses_mcoarse s _
@[simp] theorem monoFold_gprevl (s : State) : (monoFold s).gprevl = s.gprevl := State.withBuses_gprevl s _
@[simp] theorem monoFold_gprevr (s : State) : (monoFold s).gprevr = s.gprevr := State.withBuses_gprevr s _
@[simp] theorem monoFold_wptr (s : State) : (monoFold s).wptr = s.wptr := State.withBuses_wptr s _
@[simp] theorem monoFold_rsp (s : State) : (monoFold s).rsp = s.rsp := State.withBuses_rsp s _
@[simp] theorem monoFold_fxst (s : State) : (monoFold s).fxst = s.fxst := State.withBuses_fxst s _
@[simp] theorem monoFold_lr (s : State) : (monoFold s).lr = s.lr := State.withBuses_lr s _
@[simp] theorem monoFold_chans (s : State) : (monoFold s).chans = s.chans := State.withBuses_chans s _
@[simp] theorem monoFold_voices (s : State) : (monoFold s).voices = s.voices := State.withBuses_voices s _
@[simp] theorem monoFold_wave (s : State) : (monoFold s).wave = s.wave := State.withBuses_wave s _
@[simp] theorem monoFold_wt (s : State) : (monoFold s).wt = s.wt := State.withBuses_wt s _
@[simp] theorem monoFold_cb (s : State) : (monoFold s).cb = s.cb := State.withBuses_cb s _
@[simp] theorem monoFold_outbuf (s : State) : (monoFold s).outbuf = s.outbuf := State.withBuses_outbuf s _
@[simp] theorem monoFold_outrd (s : State) : (monoFold s).outrd = s.outrd := State.withBuses_outrd s _
@[simp] theorem monoFold_sched (s : State) : (monoFold s).sched = s.sched := State.withBuses_sched s _
@[simp] theorem monoFold_sinkGot (s : State) : (monoFold s).sinkGot = s.sinkGot := State.withBuses_sinkGot s _
@[simp] theorem monoFold_epoch (s : State) : (monoFold s).epoch = s.epoch := State.withBuses_epoch s _
@[simp] theorem monoFold_freeCtr (s : State) : (monoFold s).freeCtr = s.freeCtr := State.withBuses_freeCtr s _

/-! ## `fxAudio` -/

@[simp] theorem fxAudio_cfg (s : State) : (fxAudio s).cfg = s.cfg := State.withFxstBuses_cfg s _ _
@[simp] theorem fxAudio_run (s : State) : (fxAudio s).run = s.run := State.withFxstBuses_run s _ _
@[simp] theorem fxAudio_idle (s : State) : (fxAudio s).idle = s.idle := State.withFxstBuses_idle s _ _
@[simp] theorem fxAudio_silcnt (s : State) : (fxAudio s).silcnt = s.silcnt := State.withFxstBuses_silcnt s _ _
@[simp] theorem fxAudio_tickcnt (s : State) : (fxAudio s).tickcnt = s.tickcnt := State.withFxstBuses_tickcnt s _ _
@[simp] theorem fxAudio_cmdseen (s : State) : (fxAudio s).cmdseen = s.cmdseen := State.withFxstBuses_cmdseen s _ _
@[simp] theorem fxAudio_asen (s : State) : (fxAudio s).asen = s.asen := State.withFxstBuses_asen s _ _
@[simp] theorem fxAudio_ascnt (s : State) : (fxAudio s).ascnt = s.ascnt := State.withFxstBuses_ascnt s _ _
@[simp] theorem fxAudio_err (s : State) : (fxAudio s).err = s.err := State.withFxstBuses_err s _ _
@[simp] theorem fxAudio_ien (s : State) : (fxAudio s).ien = s.ien := State.withFxstBuses_ien s _ _
@[simp] theorem fxAudio_mvol (s : State) : (fxAudio s).mvol = s.mvol := State.withFxstBuses_mvol s _ _
@[simp] theorem fxAudio_mbal (s : State) : (fxAudio s).mbal = s.mbal := State.withFxstBuses_mbal s _ _
@[simp] theorem fxAudio_mfine (s : State) : (fxAudio s).mfine = s.mfine := State.withFxstBuses_mfine s _ _
@[simp] theorem fxAudio_mcoarse (s : State) : (fxAudio s).mcoarse = s.mcoarse := State.withFxstBuses_mcoarse s _ _
@[simp] theorem fxAudio_gprevl (s : State) : (fxAudio s).gprevl = s.gprevl := State.withFxstBuses_gprevl s _ _
@[simp] theorem fxAudio_gprevr (s : State) : (fxAudio s).gprevr = s.gprevr := State.withFxstBuses_gprevr s _ _
@[simp] theorem fxAudio_wptr (s : State) : (fxAudio s).wptr = s.wptr := State.withFxstBuses_wptr s _ _
@[simp] theorem fxAudio_rsp (s : State) : (fxAudio s).rsp = s.rsp := State.withFxstBuses_rsp s _ _
@[simp] theorem fxAudio_lr (s : State) : (fxAudio s).lr = s.lr := State.withFxstBuses_lr s _ _
@[simp] theorem fxAudio_chans (s : State) : (fxAudio s).chans = s.chans := State.withFxstBuses_chans s _ _
@[simp] theorem fxAudio_voices (s : State) : (fxAudio s).voices = s.voices := State.withFxstBuses_voices s _ _
@[simp] theorem fxAudio_wave (s : State) : (fxAudio s).wave = s.wave := State.withFxstBuses_wave s _ _
@[simp] theorem fxAudio_wt (s : State) : (fxAudio s).wt = s.wt := State.withFxstBuses_wt s _ _
@[simp] theorem fxAudio_cb (s : State) : (fxAudio s).cb = s.cb := State.withFxstBuses_cb s _ _
@[simp] theorem fxAudio_outbuf (s : State) : (fxAudio s).outbuf = s.outbuf := State.withFxstBuses_outbuf s _ _
@[simp] theorem fxAudio_outrd (s : State) : (fxAudio s).outrd = s.outrd := State.withFxstBuses_outrd s _ _
@[simp] theorem fxAudio_sched (s : State) : (fxAudio s).sched = s.sched := State.withFxstBuses_sched s _ _
@[simp] theorem fxAudio_sinkGot (s : State) : (fxAudio s).sinkGot = s.sinkGot := State.withFxstBuses_sinkGot s _ _
@[simp] theorem fxAudio_epoch (s : State) : (fxAudio s).epoch = s.epoch := State.withFxstBuses_epoch s _ _
@[simp] theorem fxAudio_freeCtr (s : State) : (fxAudio s).freeCtr = s.freeCtr := State.withFxstBuses_freeCtr s _ _

/-! ## `watchdog` -/

@[simp] theorem watchdog_cfg (s : State) : (watchdog s).cfg = s.cfg := by
  obtain ⟨vs, -, h⟩ := watchdog_eq s; rw [h]
@[simp] theorem watchdog_run (s : State) : (watchdog s).run = s.run := by
  obtain ⟨vs, -, h⟩ := watchdog_eq s; rw [h]
@[simp] theorem watchdog_idle (s : State) : (watchdog s).idle = s.idle := by
  obtain ⟨vs, -, h⟩ := watchdog_eq s; rw [h]
@[simp] theorem watchdog_silcnt (s : State) : (watchdog s).silcnt = s.silcnt := by
  obtain ⟨vs, -, h⟩ := watchdog_eq s; rw [h]
@[simp] theorem watchdog_tickcnt (s : State) : (watchdog s).tickcnt = s.tickcnt := by
  obtain ⟨vs, -, h⟩ := watchdog_eq s; rw [h]
@[simp] theorem watchdog_cmdseen (s : State) : (watchdog s).cmdseen = s.cmdseen := by
  obtain ⟨vs, -, h⟩ := watchdog_eq s; rw [h]
@[simp] theorem watchdog_asen (s : State) : (watchdog s).asen = (s.asen && !s.watchdogFires) := by
  obtain ⟨vs, -, h⟩ := watchdog_eq s; rw [h]
@[simp] theorem watchdog_ascnt (s : State) : (watchdog s).ascnt = countUp s.ascnt := by
  obtain ⟨vs, -, h⟩ := watchdog_eq s; rw [h]
@[simp] theorem watchdog_err (s : State) : (watchdog s).err = s.err ||| ErrBit.wdog.maskIf s.watchdogFires := by
  obtain ⟨vs, -, h⟩ := watchdog_eq s; rw [h]
@[simp] theorem watchdog_ien (s : State) : (watchdog s).ien = s.ien := by
  obtain ⟨vs, -, h⟩ := watchdog_eq s; rw [h]
@[simp] theorem watchdog_mvol (s : State) : (watchdog s).mvol = s.mvol := by
  obtain ⟨vs, -, h⟩ := watchdog_eq s; rw [h]
@[simp] theorem watchdog_mbal (s : State) : (watchdog s).mbal = s.mbal := by
  obtain ⟨vs, -, h⟩ := watchdog_eq s; rw [h]
@[simp] theorem watchdog_mfine (s : State) : (watchdog s).mfine = s.mfine := by
  obtain ⟨vs, -, h⟩ := watchdog_eq s; rw [h]
@[simp] theorem watchdog_mcoarse (s : State) : (watchdog s).mcoarse = s.mcoarse := by
  obtain ⟨vs, -, h⟩ := watchdog_eq s; rw [h]
@[simp] theorem watchdog_gprevl (s : State) : (watchdog s).gprevl = s.gprevl := by
  obtain ⟨vs, -, h⟩ := watchdog_eq s; rw [h]
@[simp] theorem watchdog_gprevr (s : State) : (watchdog s).gprevr = s.gprevr := by
  obtain ⟨vs, -, h⟩ := watchdog_eq s; rw [h]
@[simp] theorem watchdog_wptr (s : State) : (watchdog s).wptr = s.wptr := by
  obtain ⟨vs, -, h⟩ := watchdog_eq s; rw [h]
@[simp] theorem watchdog_rsp (s : State) : (watchdog s).rsp = s.rsp := by
  obtain ⟨vs, -, h⟩ := watchdog_eq s; rw [h]
@[simp] theorem watchdog_fxst (s : State) : (watchdog s).fxst = s.fxst := by
  obtain ⟨vs, -, h⟩ := watchdog_eq s; rw [h]
@[simp] theorem watchdog_lr (s : State) : (watchdog s).lr = s.lr := by
  obtain ⟨vs, -, h⟩ := watchdog_eq s; rw [h]
@[simp] theorem watchdog_chans (s : State) : (watchdog s).chans = s.chans := by
  obtain ⟨vs, -, h⟩ := watchdog_eq s; rw [h]
@[simp] theorem watchdog_wave (s : State) : (watchdog s).wave = s.wave := by
  obtain ⟨vs, -, h⟩ := watchdog_eq s; rw [h]
@[simp] theorem watchdog_wt (s : State) : (watchdog s).wt = s.wt := by
  obtain ⟨vs, -, h⟩ := watchdog_eq s; rw [h]
@[simp] theorem watchdog_cb (s : State) : (watchdog s).cb = s.cb := by
  obtain ⟨vs, -, h⟩ := watchdog_eq s; rw [h]
@[simp] theorem watchdog_buses (s : State) : (watchdog s).buses = s.buses := by
  obtain ⟨vs, -, h⟩ := watchdog_eq s; rw [h]
@[simp] theorem watchdog_outbuf (s : State) : (watchdog s).outbuf = s.outbuf := by
  obtain ⟨vs, -, h⟩ := watchdog_eq s; rw [h]
@[simp] theorem watchdog_outrd (s : State) : (watchdog s).outrd = s.outrd := by
  obtain ⟨vs, -, h⟩ := watchdog_eq s; rw [h]
@[simp] theorem watchdog_sched (s : State) : (watchdog s).sched = s.sched := by
  obtain ⟨vs, -, h⟩ := watchdog_eq s; rw [h]
@[simp] theorem watchdog_sinkGot (s : State) : (watchdog s).sinkGot = s.sinkGot := by
  obtain ⟨vs, -, h⟩ := watchdog_eq s; rw [h]
@[simp] theorem watchdog_epoch (s : State) : (watchdog s).epoch = s.epoch := by
  obtain ⟨vs, -, h⟩ := watchdog_eq s; rw [h]
@[simp] theorem watchdog_freeCtr (s : State) : (watchdog s).freeCtr = s.freeCtr := by
  obtain ⟨vs, -, h⟩ := watchdog_eq s; rw [h]
@[simp] theorem watchdog_voices_length (s : State) : (watchdog s).voices.length = s.voices.length := by
  obtain ⟨vs, hl, h⟩ := watchdog_eq s; rw [h]; exact hl

/-! ## Steps 1 to 6 together -/

@[simp] theorem delayIn_watchdogFires (s : State) : (delayIn s).watchdogFires = s.watchdogFires := rfl

@[simp] theorem tickToBuses_cfg (s : State) : (tickToBuses s).cfg = s.cfg := by simp [tickToBuses]
@[simp] theorem tickToBuses_run (s : State) : (tickToBuses s).run = s.run := by simp [tickToBuses]
@[simp] theorem tickToBuses_idle (s : State) : (tickToBuses s).idle = s.idle := by simp [tickToBuses]
@[simp] theorem tickToBuses_silcnt (s : State) : (tickToBuses s).silcnt = s.silcnt := by simp [tickToBuses]
@[simp] theorem tickToBuses_tickcnt (s : State) : (tickToBuses s).tickcnt = s.tickcnt := by simp [tickToBuses]
@[simp] theorem tickToBuses_cmdseen (s : State) : (tickToBuses s).cmdseen = s.cmdseen := by simp [tickToBuses]
@[simp] theorem tickToBuses_asen (s : State) : (tickToBuses s).asen = (s.asen && !s.watchdogFires) := by simp [tickToBuses]
@[simp] theorem tickToBuses_ascnt (s : State) : (tickToBuses s).ascnt = countUp s.ascnt := by simp [tickToBuses]
@[simp] theorem tickToBuses_ien (s : State) : (tickToBuses s).ien = s.ien := by simp [tickToBuses]
@[simp] theorem tickToBuses_mvol (s : State) : (tickToBuses s).mvol = s.mvol := by simp [tickToBuses]
@[simp] theorem tickToBuses_mbal (s : State) : (tickToBuses s).mbal = s.mbal := by simp [tickToBuses]
@[simp] theorem tickToBuses_mfine (s : State) : (tickToBuses s).mfine = s.mfine := by simp [tickToBuses]
@[simp] theorem tickToBuses_mcoarse (s : State) : (tickToBuses s).mcoarse = s.mcoarse := by simp [tickToBuses]
@[simp] theorem tickToBuses_gprevl (s : State) : (tickToBuses s).gprevl = s.gprevl := by simp [tickToBuses]
@[simp] theorem tickToBuses_gprevr (s : State) : (tickToBuses s).gprevr = s.gprevr := by simp [tickToBuses]
@[simp] theorem tickToBuses_wptr (s : State) : (tickToBuses s).wptr = s.wptr := by simp [tickToBuses]
@[simp] theorem tickToBuses_rsp (s : State) : (tickToBuses s).rsp = s.rsp := by simp [tickToBuses]
@[simp] theorem tickToBuses_lr (s : State) : (tickToBuses s).lr = s.lr := by simp [tickToBuses]
@[simp] theorem tickToBuses_chans (s : State) : (tickToBuses s).chans = s.chans := by simp [tickToBuses]
@[simp] theorem tickToBuses_wave (s : State) : (tickToBuses s).wave = s.wave := by simp [tickToBuses]
@[simp] theorem tickToBuses_wt (s : State) : (tickToBuses s).wt = s.wt := by simp [tickToBuses]
@[simp] theorem tickToBuses_cb (s : State) : (tickToBuses s).cb = s.cb := by simp [tickToBuses]
@[simp] theorem tickToBuses_outbuf (s : State) : (tickToBuses s).outbuf = s.outbuf := by simp [tickToBuses]
@[simp] theorem tickToBuses_outrd (s : State) : (tickToBuses s).outrd = s.outrd := by simp [tickToBuses]
@[simp] theorem tickToBuses_sched (s : State) : (tickToBuses s).sched = s.sched := by simp [tickToBuses]
@[simp] theorem tickToBuses_sinkGot (s : State) : (tickToBuses s).sinkGot = s.sinkGot := by simp [tickToBuses]
@[simp] theorem tickToBuses_epoch (s : State) : (tickToBuses s).epoch = s.epoch := by simp [tickToBuses]

/-! ## The tick -/

@[simp] theorem tick_cfg (s : State) : (tick s).cfg = s.cfg := by
  obtain ⟨c, h, -⟩ := tickOutput_eq (tickToBuses s); rw [tick, h]; simp
@[simp] theorem tick_run (s : State) : (tick s).run = s.run := by
  obtain ⟨c, h, -⟩ := tickOutput_eq (tickToBuses s); rw [tick, h]; simp
@[simp] theorem tick_tickcnt (s : State) : (tick s).tickcnt = s.tickcnt + 1 := by
  obtain ⟨c, h, -⟩ := tickOutput_eq (tickToBuses s); rw [tick, h]; simp
@[simp] theorem tick_cmdseen (s : State) : (tick s).cmdseen = false := by
  obtain ⟨c, h, -⟩ := tickOutput_eq (tickToBuses s); rw [tick, h]
@[simp] theorem tick_asen (s : State) : (tick s).asen = (s.asen && !s.watchdogFires) := by
  obtain ⟨c, h, -⟩ := tickOutput_eq (tickToBuses s); rw [tick, h]; simp
@[simp] theorem tick_ascnt (s : State) : (tick s).ascnt = countUp s.ascnt := by
  obtain ⟨c, h, -⟩ := tickOutput_eq (tickToBuses s); rw [tick, h]; simp
@[simp] theorem tick_ien (s : State) : (tick s).ien = s.ien := by
  obtain ⟨c, h, -⟩ := tickOutput_eq (tickToBuses s); rw [tick, h]; simp
@[simp] theorem tick_mvol (s : State) : (tick s).mvol = s.mvol := by
  obtain ⟨c, h, -⟩ := tickOutput_eq (tickToBuses s); rw [tick, h]; simp
@[simp] theorem tick_mbal (s : State) : (tick s).mbal = s.mbal := by
  obtain ⟨c, h, -⟩ := tickOutput_eq (tickToBuses s); rw [tick, h]; simp
@[simp] theorem tick_mfine (s : State) : (tick s).mfine = s.mfine := by
  obtain ⟨c, h, -⟩ := tickOutput_eq (tickToBuses s); rw [tick, h]; simp
@[simp] theorem tick_mcoarse (s : State) : (tick s).mcoarse = s.mcoarse := by
  obtain ⟨c, h, -⟩ := tickOutput_eq (tickToBuses s); rw [tick, h]; simp
@[simp] theorem tick_wptr (s : State) : (tick s).wptr = s.wptr := by
  obtain ⟨c, h, -⟩ := tickOutput_eq (tickToBuses s); rw [tick, h]; simp
@[simp] theorem tick_rsp (s : State) : (tick s).rsp = s.rsp := by
  obtain ⟨c, h, -⟩ := tickOutput_eq (tickToBuses s); rw [tick, h]; simp
@[simp] theorem tick_lr (s : State) : (tick s).lr = s.lr := by
  obtain ⟨c, h, -⟩ := tickOutput_eq (tickToBuses s); rw [tick, h]; simp
@[simp] theorem tick_chans (s : State) : (tick s).chans = s.chans := by
  obtain ⟨c, h, -⟩ := tickOutput_eq (tickToBuses s); rw [tick, h]; simp
@[simp] theorem tick_wave (s : State) : (tick s).wave = s.wave := by
  obtain ⟨c, h, -⟩ := tickOutput_eq (tickToBuses s); rw [tick, h]; simp
@[simp] theorem tick_wt (s : State) : (tick s).wt = s.wt := by
  obtain ⟨c, h, -⟩ := tickOutput_eq (tickToBuses s); rw [tick, h]; simp
@[simp] theorem tick_cb (s : State) : (tick s).cb = s.cb := by
  obtain ⟨c, h, -⟩ := tickOutput_eq (tickToBuses s); rw [tick, h]; simp
@[simp] theorem tick_outrd (s : State) : (tick s).outrd = 0 := by
  obtain ⟨c, h, -⟩ := tickOutput_eq (tickToBuses s); rw [tick, h]
@[simp] theorem tick_sched (s : State) : (tick s).sched = s.sched := by
  obtain ⟨c, h, -⟩ := tickOutput_eq (tickToBuses s); rw [tick, h]; simp
@[simp] theorem tick_sinkGot (s : State) : (tick s).sinkGot = s.sinkGot := by
  obtain ⟨c, h, -⟩ := tickOutput_eq (tickToBuses s); rw [tick, h]; simp
@[simp] theorem tick_epoch (s : State) : (tick s).epoch = s.epoch := by
  obtain ⟨c, h, -⟩ := tickOutput_eq (tickToBuses s); rw [tick, h]; simp
theorem tick_voices (s : State) : (tick s).voices = (tickToBuses s).voices := by
  obtain ⟨c, h, -⟩ := tickOutput_eq (tickToBuses s); rw [tick, h]
theorem tick_buses (s : State) : (tick s).buses = (tickToBuses s).buses := by
  obtain ⟨c, h, -⟩ := tickOutput_eq (tickToBuses s); rw [tick, h]
theorem tick_fxst (s : State) : (tick s).fxst = (tickToBuses s).fxst := by
  obtain ⟨c, h, -⟩ := tickOutput_eq (tickToBuses s); rw [tick, h]
theorem tick_freeCtr (s : State) : (tick s).freeCtr = (tickToBuses s).freeCtr := by
  obtain ⟨c, h, -⟩ := tickOutput_eq (tickToBuses s); rw [tick, h]

end Sys2Proof.Machine
end

