-- ==== Sys2Proof/Laws/VoiceFields.lean ====
section
/-! SUPPORT. One lemma per field per update of a voice slot, so that no later proof unfolds an update of a voice. -/

namespace Sys2Proof.Machine

/-! ## Generic updates: the new value is any value, so that no proof computes it -/

theorem Voice.withDst_act (v : Voice) (d : Vector (BitVec 48) 24) : ({ v with dst := d } : Voice).act = v.act := rfl
theorem Voice.withDst_pend (v : Voice) (d : Vector (BitVec 48) 24) : ({ v with dst := d } : Voice).pend = v.pend := rfl
theorem Voice.withDst_ident (v : Voice) (d : Vector (BitVec 48) 24) : ({ v with dst := d } : Voice).ident = v.ident := rfl
theorem Voice.withDst_flags (v : Voice) (d : Vector (BitVec 48) 24) : ({ v with dst := d } : Voice).flags = v.flags := rfl
theorem Voice.withDst_forced (v : Voice) (d : Vector (BitVec 48) 24) : ({ v with dst := d } : Voice).forced = v.forced := rfl
theorem Voice.withDst_pp (v : Voice) (d : Vector (BitVec 48) 24) : ({ v with dst := d } : Voice).pp = v.pp := rfl
theorem Voice.withDst_eg0 (v : Voice) (d : Vector (BitVec 48) 24) : ({ v with dst := d } : Voice).eg0 = v.eg0 := rfl
theorem Voice.withDst_eg1 (v : Voice) (d : Vector (BitVec 48) 24) : ({ v with dst := d } : Voice).eg1 = v.eg1 := rfl
theorem Voice.withDst_lfo0 (v : Voice) (d : Vector (BitVec 48) 24) : ({ v with dst := d } : Voice).lfo0 = v.lfo0 := rfl
theorem Voice.withDst_lfo1 (v : Voice) (d : Vector (BitVec 48) 24) : ({ v with dst := d } : Voice).lfo1 = v.lfo1 := rfl
theorem Voice.withDst_shut (v : Voice) (d : Vector (BitVec 48) 24) : ({ v with dst := d } : Voice).shut = v.shut := rfl
theorem Voice.withDst_gofs (v : Voice) (d : Vector (BitVec 48) 24) : ({ v with dst := d } : Voice).gofs = v.gofs := rfl
theorem Voice.withDst_grate (v : Voice) (d : Vector (BitVec 48) 24) : ({ v with dst := d } : Voice).grate = v.grate := rfl
theorem Voice.withDst_desc (v : Voice) (d : Vector (BitVec 48) 24) : ({ v with dst := d } : Voice).desc = v.desc := rfl
theorem Voice.withDst_pos (v : Voice) (d : Vector (BitVec 48) 24) : ({ v with dst := d } : Voice).pos = v.pos := rfl
theorem Voice.withDst_audio (v : Voice) (d : Vector (BitVec 48) 24) : ({ v with dst := d } : Voice).audio = v.audio := rfl
theorem Voice.withDst_stale (v : Voice) (d : Vector (BitVec 48) 24) : ({ v with dst := d } : Voice).stale = v.stale := rfl

theorem Voice.withAudio_act (v : Voice) (a : Audio) : ({ v with audio := a } : Voice).act = v.act := rfl
theorem Voice.withAudio_pend (v : Voice) (a : Audio) : ({ v with audio := a } : Voice).pend = v.pend := rfl
theorem Voice.withAudio_ident (v : Voice) (a : Audio) : ({ v with audio := a } : Voice).ident = v.ident := rfl
theorem Voice.withAudio_flags (v : Voice) (a : Audio) : ({ v with audio := a } : Voice).flags = v.flags := rfl
theorem Voice.withAudio_forced (v : Voice) (a : Audio) : ({ v with audio := a } : Voice).forced = v.forced := rfl
theorem Voice.withAudio_pp (v : Voice) (a : Audio) : ({ v with audio := a } : Voice).pp = v.pp := rfl
theorem Voice.withAudio_dst (v : Voice) (a : Audio) : ({ v with audio := a } : Voice).dst = v.dst := rfl
theorem Voice.withAudio_eg0 (v : Voice) (a : Audio) : ({ v with audio := a } : Voice).eg0 = v.eg0 := rfl
theorem Voice.withAudio_eg1 (v : Voice) (a : Audio) : ({ v with audio := a } : Voice).eg1 = v.eg1 := rfl
theorem Voice.withAudio_lfo0 (v : Voice) (a : Audio) : ({ v with audio := a } : Voice).lfo0 = v.lfo0 := rfl
theorem Voice.withAudio_lfo1 (v : Voice) (a : Audio) : ({ v with audio := a } : Voice).lfo1 = v.lfo1 := rfl
theorem Voice.withAudio_shut (v : Voice) (a : Audio) : ({ v with audio := a } : Voice).shut = v.shut := rfl
theorem Voice.withAudio_gofs (v : Voice) (a : Audio) : ({ v with audio := a } : Voice).gofs = v.gofs := rfl
theorem Voice.withAudio_grate (v : Voice) (a : Audio) : ({ v with audio := a } : Voice).grate = v.grate := rfl
theorem Voice.withAudio_desc (v : Voice) (a : Audio) : ({ v with audio := a } : Voice).desc = v.desc := rfl
theorem Voice.withAudio_pos (v : Voice) (a : Audio) : ({ v with audio := a } : Voice).pos = v.pos := rfl
theorem Voice.withAudio_stale (v : Voice) (a : Audio) : ({ v with audio := a } : Voice).stale = v.stale := rfl

theorem Voice.withNoteOn_act (v : Voice) (d : Vector (BitVec 48) 24) (x : Forced) :
    ({ v with dst := d, forced := x } : Voice).act = v.act := rfl
theorem Voice.withNoteOn_pend (v : Voice) (d : Vector (BitVec 48) 24) (x : Forced) :
    ({ v with dst := d, forced := x } : Voice).pend = v.pend := rfl
theorem Voice.withNoteOn_ident (v : Voice) (d : Vector (BitVec 48) 24) (x : Forced) :
    ({ v with dst := d, forced := x } : Voice).ident = v.ident := rfl
theorem Voice.withNoteOn_flags (v : Voice) (d : Vector (BitVec 48) 24) (x : Forced) :
    ({ v with dst := d, forced := x } : Voice).flags = v.flags := rfl
theorem Voice.withNoteOn_pp (v : Voice) (d : Vector (BitVec 48) 24) (x : Forced) :
    ({ v with dst := d, forced := x } : Voice).pp = v.pp := rfl
theorem Voice.withNoteOn_eg0 (v : Voice) (d : Vector (BitVec 48) 24) (x : Forced) :
    ({ v with dst := d, forced := x } : Voice).eg0 = v.eg0 := rfl
theorem Voice.withNoteOn_eg1 (v : Voice) (d : Vector (BitVec 48) 24) (x : Forced) :
    ({ v with dst := d, forced := x } : Voice).eg1 = v.eg1 := rfl
theorem Voice.withNoteOn_lfo0 (v : Voice) (d : Vector (BitVec 48) 24) (x : Forced) :
    ({ v with dst := d, forced := x } : Voice).lfo0 = v.lfo0 := rfl
theorem Voice.withNoteOn_lfo1 (v : Voice) (d : Vector (BitVec 48) 24) (x : Forced) :
    ({ v with dst := d, forced := x } : Voice).lfo1 = v.lfo1 := rfl
theorem Voice.withNoteOn_shut (v : Voice) (d : Vector (BitVec 48) 24) (x : Forced) :
    ({ v with dst := d, forced := x } : Voice).shut = v.shut := rfl
theorem Voice.withNoteOn_gofs (v : Voice) (d : Vector (BitVec 48) 24) (x : Forced) :
    ({ v with dst := d, forced := x } : Voice).gofs = v.gofs := rfl
theorem Voice.withNoteOn_grate (v : Voice) (d : Vector (BitVec 48) 24) (x : Forced) :
    ({ v with dst := d, forced := x } : Voice).grate = v.grate := rfl
theorem Voice.withNoteOn_desc (v : Voice) (d : Vector (BitVec 48) 24) (x : Forced) :
    ({ v with dst := d, forced := x } : Voice).desc = v.desc := rfl
theorem Voice.withNoteOn_pos (v : Voice) (d : Vector (BitVec 48) 24) (x : Forced) :
    ({ v with dst := d, forced := x } : Voice).pos = v.pos := rfl
theorem Voice.withNoteOn_audio (v : Voice) (d : Vector (BitVec 48) 24) (x : Forced) :
    ({ v with dst := d, forced := x } : Voice).audio = v.audio := rfl
theorem Voice.withNoteOn_stale (v : Voice) (d : Vector (BitVec 48) 24) (x : Forced) :
    ({ v with dst := d, forced := x } : Voice).stale = v.stale := rfl

/-! ## `Voice.glide` -/

@[simp] theorem Voice.glide_act (v : Voice) : (v.glide).act = v.act := rfl
@[simp] theorem Voice.glide_pend (v : Voice) : (v.glide).pend = v.pend := rfl
@[simp] theorem Voice.glide_ident (v : Voice) : (v.glide).ident = v.ident := rfl
@[simp] theorem Voice.glide_flags (v : Voice) : (v.glide).flags = v.flags := rfl
@[simp] theorem Voice.glide_forced (v : Voice) : (v.glide).forced = v.forced := rfl
@[simp] theorem Voice.glide_pp (v : Voice) : (v.glide).pp = v.pp := rfl
@[simp] theorem Voice.glide_dst (v : Voice) : (v.glide).dst = v.dst := rfl
@[simp] theorem Voice.glide_eg0 (v : Voice) : (v.glide).eg0 = v.eg0 := rfl
@[simp] theorem Voice.glide_eg1 (v : Voice) : (v.glide).eg1 = v.eg1 := rfl
@[simp] theorem Voice.glide_lfo0 (v : Voice) : (v.glide).lfo0 = v.lfo0 := rfl
@[simp] theorem Voice.glide_lfo1 (v : Voice) : (v.glide).lfo1 = v.lfo1 := rfl
@[simp] theorem Voice.glide_shut (v : Voice) : (v.glide).shut = v.shut := rfl
@[simp] theorem Voice.glide_gofs (v : Voice) : (v.glide).gofs = glideStep v.gofs v.grate := rfl
@[simp] theorem Voice.glide_grate (v : Voice) : (v.glide).grate = v.grate := rfl
@[simp] theorem Voice.glide_desc (v : Voice) : (v.glide).desc = v.desc := rfl
@[simp] theorem Voice.glide_pos (v : Voice) : (v.glide).pos = v.pos := rfl
@[simp] theorem Voice.glide_audio (v : Voice) : (v.glide).audio = v.audio := rfl
@[simp] theorem Voice.glide_stale (v : Voice) : (v.glide).stale = v.stale := rfl

/-! ## `evalTick` -/

@[simp] theorem evalTick_act (s : State) (v : Voice) : (evalTick s v).act = v.act := Voice.withDst_act v _
@[simp] theorem evalTick_pend (s : State) (v : Voice) : (evalTick s v).pend = v.pend := Voice.withDst_pend v _
@[simp] theorem evalTick_ident (s : State) (v : Voice) : (evalTick s v).ident = v.ident := Voice.withDst_ident v _
@[simp] theorem evalTick_flags (s : State) (v : Voice) : (evalTick s v).flags = v.flags := Voice.withDst_flags v _
@[simp] theorem evalTick_forced (s : State) (v : Voice) : (evalTick s v).forced = v.forced := Voice.withDst_forced v _
@[simp] theorem evalTick_pp (s : State) (v : Voice) : (evalTick s v).pp = v.pp := Voice.withDst_pp v _
@[simp] theorem evalTick_eg0 (s : State) (v : Voice) : (evalTick s v).eg0 = v.eg0 := Voice.withDst_eg0 v _
@[simp] theorem evalTick_eg1 (s : State) (v : Voice) : (evalTick s v).eg1 = v.eg1 := Voice.withDst_eg1 v _
@[simp] theorem evalTick_lfo0 (s : State) (v : Voice) : (evalTick s v).lfo0 = v.lfo0 := Voice.withDst_lfo0 v _
@[simp] theorem evalTick_lfo1 (s : State) (v : Voice) : (evalTick s v).lfo1 = v.lfo1 := Voice.withDst_lfo1 v _
@[simp] theorem evalTick_shut (s : State) (v : Voice) : (evalTick s v).shut = v.shut := Voice.withDst_shut v _
@[simp] theorem evalTick_gofs (s : State) (v : Voice) : (evalTick s v).gofs = v.gofs := Voice.withDst_gofs v _
@[simp] theorem evalTick_grate (s : State) (v : Voice) : (evalTick s v).grate = v.grate := Voice.withDst_grate v _
@[simp] theorem evalTick_desc (s : State) (v : Voice) : (evalTick s v).desc = v.desc := Voice.withDst_desc v _
@[simp] theorem evalTick_pos (s : State) (v : Voice) : (evalTick s v).pos = v.pos := Voice.withDst_pos v _
@[simp] theorem evalTick_audio (s : State) (v : Voice) : (evalTick s v).audio = v.audio := Voice.withDst_audio v _
@[simp] theorem evalTick_stale (s : State) (v : Voice) : (evalTick s v).stale = v.stale := Voice.withDst_stale v _

/-! ## `evalInit` -/

@[simp] theorem evalInit_act (s : State) (v : Voice) : (evalInit s v).act = v.act := Voice.withNoteOn_act v _ _
@[simp] theorem evalInit_pend (s : State) (v : Voice) : (evalInit s v).pend = v.pend := Voice.withNoteOn_pend v _ _
@[simp] theorem evalInit_ident (s : State) (v : Voice) :
    (evalInit s v).ident =
      v.ident := Voice.withNoteOn_ident v _ _
@[simp] theorem evalInit_flags (s : State) (v : Voice) :
    (evalInit s v).flags =
      v.flags := Voice.withNoteOn_flags v _ _
@[simp] theorem evalInit_pp (s : State) (v : Voice) : (evalInit s v).pp = v.pp := Voice.withNoteOn_pp v _ _
@[simp] theorem evalInit_eg0 (s : State) (v : Voice) : (evalInit s v).eg0 = v.eg0 := Voice.withNoteOn_eg0 v _ _
@[simp] theorem evalInit_eg1 (s : State) (v : Voice) : (evalInit s v).eg1 = v.eg1 := Voice.withNoteOn_eg1 v _ _
@[simp] theorem evalInit_lfo0 (s : State) (v : Voice) : (evalInit s v).lfo0 = v.lfo0 := Voice.withNoteOn_lfo0 v _ _
@[simp] theorem evalInit_lfo1 (s : State) (v : Voice) : (evalInit s v).lfo1 = v.lfo1 := Voice.withNoteOn_lfo1 v _ _
@[simp] theorem evalInit_shut (s : State) (v : Voice) : (evalInit s v).shut = v.shut := Voice.withNoteOn_shut v _ _
@[simp] theorem evalInit_gofs (s : State) (v : Voice) : (evalInit s v).gofs = v.gofs := Voice.withNoteOn_gofs v _ _
@[simp] theorem evalInit_grate (s : State) (v : Voice) :
    (evalInit s v).grate =
      v.grate := Voice.withNoteOn_grate v _ _
@[simp] theorem evalInit_desc (s : State) (v : Voice) : (evalInit s v).desc = v.desc := Voice.withNoteOn_desc v _ _
@[simp] theorem evalInit_pos (s : State) (v : Voice) : (evalInit s v).pos = v.pos := Voice.withNoteOn_pos v _ _
@[simp] theorem evalInit_audio (s : State) (v : Voice) :
    (evalInit s v).audio =
      v.audio := Voice.withNoteOn_audio v _ _
@[simp] theorem evalInit_stale (s : State) (v : Voice) :
    (evalInit s v).stale =
      v.stale := Voice.withNoteOn_stale v _ _

/-! ## `Voice.stepLfos` -/

@[simp] theorem Voice.stepLfos_act (cfg : Config) (v : Voice) : (v.stepLfos cfg).act = v.act := rfl
@[simp] theorem Voice.stepLfos_pend (cfg : Config) (v : Voice) : (v.stepLfos cfg).pend = v.pend := rfl
@[simp] theorem Voice.stepLfos_ident (cfg : Config) (v : Voice) : (v.stepLfos cfg).ident = v.ident := rfl
@[simp] theorem Voice.stepLfos_flags (cfg : Config) (v : Voice) : (v.stepLfos cfg).flags = v.flags := rfl
@[simp] theorem Voice.stepLfos_forced (cfg : Config) (v : Voice) : (v.stepLfos cfg).forced = v.forced := rfl
@[simp] theorem Voice.stepLfos_pp (cfg : Config) (v : Voice) : (v.stepLfos cfg).pp = v.pp := rfl
@[simp] theorem Voice.stepLfos_dst (cfg : Config) (v : Voice) : (v.stepLfos cfg).dst = v.dst := rfl
@[simp] theorem Voice.stepLfos_eg0 (cfg : Config) (v : Voice) : (v.stepLfos cfg).eg0 = v.eg0 := rfl
@[simp] theorem Voice.stepLfos_eg1 (cfg : Config) (v : Voice) : (v.stepLfos cfg).eg1 = v.eg1 := rfl
@[simp] theorem Voice.stepLfos_lfo0 (cfg : Config) (v : Voice) :
    (v.stepLfos cfg).lfo0 =
      lfoAdvance cfg v.lfo0 (v.dstVal 12) := rfl
@[simp] theorem Voice.stepLfos_lfo1 (cfg : Config) (v : Voice) :
    (v.stepLfos cfg).lfo1 =
      lfoAdvance cfg v.lfo1 (v.dstVal 14) := rfl
@[simp] theorem Voice.stepLfos_shut (cfg : Config) (v : Voice) : (v.stepLfos cfg).shut = v.shut := rfl
@[simp] theorem Voice.stepLfos_gofs (cfg : Config) (v : Voice) : (v.stepLfos cfg).gofs = v.gofs := rfl
@[simp] theorem Voice.stepLfos_grate (cfg : Config) (v : Voice) : (v.stepLfos cfg).grate = v.grate := rfl
@[simp] theorem Voice.stepLfos_desc (cfg : Config) (v : Voice) : (v.stepLfos cfg).desc = v.desc := rfl
@[simp] theorem Voice.stepLfos_pos (cfg : Config) (v : Voice) : (v.stepLfos cfg).pos = v.pos := rfl
@[simp] theorem Voice.stepLfos_audio (cfg : Config) (v : Voice) : (v.stepLfos cfg).audio = v.audio := rfl
@[simp] theorem Voice.stepLfos_stale (cfg : Config) (v : Voice) : (v.stepLfos cfg).stale = v.stale := rfl

/-! ## `Voice.stepEgs` -/

@[simp] theorem Voice.stepEgs_act (v : Voice) : (v.stepEgs).act = v.act := rfl
@[simp] theorem Voice.stepEgs_pend (v : Voice) : (v.stepEgs).pend = v.pend := rfl
@[simp] theorem Voice.stepEgs_ident (v : Voice) : (v.stepEgs).ident = v.ident := rfl
@[simp] theorem Voice.stepEgs_flags (v : Voice) : (v.stepEgs).flags = v.flags := rfl
@[simp] theorem Voice.stepEgs_forced (v : Voice) : (v.stepEgs).forced = v.forced := rfl
@[simp] theorem Voice.stepEgs_pp (v : Voice) : (v.stepEgs).pp = v.pp := rfl
@[simp] theorem Voice.stepEgs_dst (v : Voice) : (v.stepEgs).dst = v.dst := rfl
@[simp] theorem Voice.stepEgs_eg0 (v : Voice) :
    (v.stepEgs).eg0 =
      egAdvance v.eg0 (v.dstVal 2) (v.dstVal 3) (v.dstVal 4) (v.dstVal 5) (v.dstVal 6) := rfl
@[simp] theorem Voice.stepEgs_eg1 (v : Voice) :
    (v.stepEgs).eg1 =
      egAdvance v.eg1 (v.dstVal 7) (v.dstVal 8) (v.dstVal 9) (v.dstVal 10) (v.dstVal 11) := rfl
@[simp] theorem Voice.stepEgs_lfo0 (v : Voice) : (v.stepEgs).lfo0 = v.lfo0 := rfl
@[simp] theorem Voice.stepEgs_lfo1 (v : Voice) : (v.stepEgs).lfo1 = v.lfo1 := rfl
@[simp] theorem Voice.stepEgs_shut (v : Voice) : (v.stepEgs).shut = v.shut := rfl
@[simp] theorem Voice.stepEgs_gofs (v : Voice) : (v.stepEgs).gofs = v.gofs := rfl
@[simp] theorem Voice.stepEgs_grate (v : Voice) : (v.stepEgs).grate = v.grate := rfl
@[simp] theorem Voice.stepEgs_desc (v : Voice) : (v.stepEgs).desc = v.desc := rfl
@[simp] theorem Voice.stepEgs_pos (v : Voice) : (v.stepEgs).pos = v.pos := rfl
@[simp] theorem Voice.stepEgs_audio (v : Voice) : (v.stepEgs).audio = v.audio := rfl
@[simp] theorem Voice.stepEgs_stale (v : Voice) : (v.stepEgs).stale = v.stale := rfl

/-! ## `Voice.stepShut` -/

@[simp] theorem Voice.stepShut_act (cfg : Config) (v : Voice) :
    (v.stepShut cfg).act =
      v.act := by unfold Voice.stepShut; split <;> rfl
@[simp] theorem Voice.stepShut_pend (cfg : Config) (v : Voice) :
    (v.stepShut cfg).pend =
      v.pend := by unfold Voice.stepShut; split <;> rfl
@[simp] theorem Voice.stepShut_ident (cfg : Config) (v : Voice) :
    (v.stepShut cfg).ident =
      v.ident := by unfold Voice.stepShut; split <;> rfl
@[simp] theorem Voice.stepShut_flags (cfg : Config) (v : Voice) :
    (v.stepShut cfg).flags =
      v.flags := by unfold Voice.stepShut; split <;> rfl
@[simp] theorem Voice.stepShut_forced (cfg : Config) (v : Voice) :
    (v.stepShut cfg).forced =
      v.forced := by unfold Voice.stepShut; split <;> rfl
@[simp] theorem Voice.stepShut_pp (cfg : Config) (v : Voice) :
    (v.stepShut cfg).pp =
      v.pp := by unfold Voice.stepShut; split <;> rfl
@[simp] theorem Voice.stepShut_dst (cfg : Config) (v : Voice) :
    (v.stepShut cfg).dst =
      v.dst := by unfold Voice.stepShut; split <;> rfl
@[simp] theorem Voice.stepShut_eg0 (cfg : Config) (v : Voice) :
    (v.stepShut cfg).eg0 =
      v.eg0 := by unfold Voice.stepShut; split <;> rfl
@[simp] theorem Voice.stepShut_eg1 (cfg : Config) (v : Voice) :
    (v.stepShut cfg).eg1 =
      v.eg1 := by unfold Voice.stepShut; split <;> rfl
@[simp] theorem Voice.stepShut_lfo0 (cfg : Config) (v : Voice) :
    (v.stepShut cfg).lfo0 =
      v.lfo0 := by unfold Voice.stepShut; split <;> rfl
@[simp] theorem Voice.stepShut_lfo1 (cfg : Config) (v : Voice) :
    (v.stepShut cfg).lfo1 =
      v.lfo1 := by unfold Voice.stepShut; split <;> rfl
@[simp] theorem Voice.stepShut_shut (cfg : Config) (v : Voice) :
    (v.stepShut cfg).shut =
      if v.flags.silencing then BitVec.ofNat 16 (v.shut.toNat - cfg.shutStep) else v.shut := by
  unfold Voice.stepShut; split <;> rfl
@[simp] theorem Voice.stepShut_gofs (cfg : Config) (v : Voice) :
    (v.stepShut cfg).gofs =
      v.gofs := by unfold Voice.stepShut; split <;> rfl
@[simp] theorem Voice.stepShut_grate (cfg : Config) (v : Voice) :
    (v.stepShut cfg).grate =
      v.grate := by unfold Voice.stepShut; split <;> rfl
@[simp] theorem Voice.stepShut_desc (cfg : Config) (v : Voice) :
    (v.stepShut cfg).desc =
      v.desc := by unfold Voice.stepShut; split <;> rfl
@[simp] theorem Voice.stepShut_pos (cfg : Config) (v : Voice) :
    (v.stepShut cfg).pos =
      v.pos := by unfold Voice.stepShut; split <;> rfl
@[simp] theorem Voice.stepShut_audio (cfg : Config) (v : Voice) :
    (v.stepShut cfg).audio =
      v.audio := by unfold Voice.stepShut; split <;> rfl
@[simp] theorem Voice.stepShut_stale (cfg : Config) (v : Voice) :
    (v.stepShut cfg).stale =
      v.stale := by unfold Voice.stepShut; split <;> rfl

/-! ## `Voice.markFinal` -/

@[simp] theorem Voice.markFinal_act (v : Voice) : (v.markFinal).act = v.act := rfl
@[simp] theorem Voice.markFinal_pend (v : Voice) : (v.markFinal).pend = v.pend := rfl
@[simp] theorem Voice.markFinal_ident (v : Voice) : (v.markFinal).ident = v.ident := rfl
@[simp] theorem Voice.markFinal_flags (v : Voice) : (v.markFinal).flags = { v.flags with final := v.isFinal } := rfl
@[simp] theorem Voice.markFinal_forced (v : Voice) : (v.markFinal).forced = v.forced := rfl
@[simp] theorem Voice.markFinal_pp (v : Voice) : (v.markFinal).pp = v.pp := rfl
@[simp] theorem Voice.markFinal_dst (v : Voice) : (v.markFinal).dst = v.dst := rfl
@[simp] theorem Voice.markFinal_eg0 (v : Voice) : (v.markFinal).eg0 = v.eg0 := rfl
@[simp] theorem Voice.markFinal_eg1 (v : Voice) : (v.markFinal).eg1 = v.eg1 := rfl
@[simp] theorem Voice.markFinal_lfo0 (v : Voice) : (v.markFinal).lfo0 = v.lfo0 := rfl
@[simp] theorem Voice.markFinal_lfo1 (v : Voice) : (v.markFinal).lfo1 = v.lfo1 := rfl
@[simp] theorem Voice.markFinal_shut (v : Voice) : (v.markFinal).shut = v.shut := rfl
@[simp] theorem Voice.markFinal_gofs (v : Voice) : (v.markFinal).gofs = v.gofs := rfl
@[simp] theorem Voice.markFinal_grate (v : Voice) : (v.markFinal).grate = v.grate := rfl
@[simp] theorem Voice.markFinal_desc (v : Voice) : (v.markFinal).desc = v.desc := rfl
@[simp] theorem Voice.markFinal_pos (v : Voice) : (v.markFinal).pos = v.pos := rfl
@[simp] theorem Voice.markFinal_audio (v : Voice) : (v.markFinal).audio = v.audio := rfl
@[simp] theorem Voice.markFinal_stale (v : Voice) : (v.markFinal).stale = v.stale := rfl

/-! ## `Voice.setAudio` -/

@[simp] theorem Voice.setAudio_act (cfg : Config) (v : Voice) :
    (v.setAudio cfg).act =
      v.act := Voice.withAudio_act v _
@[simp] theorem Voice.setAudio_pend (cfg : Config) (v : Voice) :
    (v.setAudio cfg).pend =
      v.pend := Voice.withAudio_pend v _
@[simp] theorem Voice.setAudio_ident (cfg : Config) (v : Voice) :
    (v.setAudio cfg).ident =
      v.ident := Voice.withAudio_ident v _
@[simp] theorem Voice.setAudio_flags (cfg : Config) (v : Voice) :
    (v.setAudio cfg).flags =
      v.flags := Voice.withAudio_flags v _
@[simp] theorem Voice.setAudio_forced (cfg : Config) (v : Voice) :
    (v.setAudio cfg).forced =
      v.forced := Voice.withAudio_forced v _
@[simp] theorem Voice.setAudio_pp (cfg : Config) (v : Voice) : (v.setAudio cfg).pp = v.pp := Voice.withAudio_pp v _
@[simp] theorem Voice.setAudio_dst (cfg : Config) (v : Voice) :
    (v.setAudio cfg).dst =
      v.dst := Voice.withAudio_dst v _
@[simp] theorem Voice.setAudio_eg0 (cfg : Config) (v : Voice) :
    (v.setAudio cfg).eg0 =
      v.eg0 := Voice.withAudio_eg0 v _
@[simp] theorem Voice.setAudio_eg1 (cfg : Config) (v : Voice) :
    (v.setAudio cfg).eg1 =
      v.eg1 := Voice.withAudio_eg1 v _
@[simp] theorem Voice.setAudio_lfo0 (cfg : Config) (v : Voice) :
    (v.setAudio cfg).lfo0 =
      v.lfo0 := Voice.withAudio_lfo0 v _
@[simp] theorem Voice.setAudio_lfo1 (cfg : Config) (v : Voice) :
    (v.setAudio cfg).lfo1 =
      v.lfo1 := Voice.withAudio_lfo1 v _
@[simp] theorem Voice.setAudio_shut (cfg : Config) (v : Voice) :
    (v.setAudio cfg).shut =
      v.shut := Voice.withAudio_shut v _
@[simp] theorem Voice.setAudio_gofs (cfg : Config) (v : Voice) :
    (v.setAudio cfg).gofs =
      v.gofs := Voice.withAudio_gofs v _
@[simp] theorem Voice.setAudio_grate (cfg : Config) (v : Voice) :
    (v.setAudio cfg).grate =
      v.grate := Voice.withAudio_grate v _
@[simp] theorem Voice.setAudio_desc (cfg : Config) (v : Voice) :
    (v.setAudio cfg).desc =
      v.desc := Voice.withAudio_desc v _
@[simp] theorem Voice.setAudio_pos (cfg : Config) (v : Voice) :
    (v.setAudio cfg).pos =
      v.pos := Voice.withAudio_pos v _
@[simp] theorem Voice.setAudio_stale (cfg : Config) (v : Voice) :
    (v.setAudio cfg).stale =
      v.stale := Voice.withAudio_stale v _

/-! ## `Voice.firstTick` -/

@[simp] theorem Voice.firstTick_act (v : Voice) :
    (v.firstTick).act =
      v.act := by unfold Voice.firstTick; split <;> rfl
@[simp] theorem Voice.firstTick_pend (v : Voice) :
    (v.firstTick).pend =
      v.pend := by unfold Voice.firstTick; split <;> rfl
@[simp] theorem Voice.firstTick_ident (v : Voice) :
    (v.firstTick).ident =
      v.ident := by unfold Voice.firstTick; split <;> rfl
@[simp] theorem Voice.firstTick_flags (v : Voice) :
    (v.firstTick).flags =
      v.flags := by unfold Voice.firstTick; split <;> rfl
@[simp] theorem Voice.firstTick_forced (v : Voice) :
    (v.firstTick).forced =
      v.forced := by unfold Voice.firstTick; split <;> rfl
@[simp] theorem Voice.firstTick_pp (v : Voice) : (v.firstTick).pp = v.pp := by unfold Voice.firstTick; split <;> rfl
@[simp] theorem Voice.firstTick_dst (v : Voice) :
    (v.firstTick).dst =
      v.dst := by unfold Voice.firstTick; split <;> rfl
@[simp] theorem Voice.firstTick_eg0 (v : Voice) :
    (v.firstTick).eg0 =
      v.eg0 := by unfold Voice.firstTick; split <;> rfl
@[simp] theorem Voice.firstTick_eg1 (v : Voice) :
    (v.firstTick).eg1 =
      v.eg1 := by unfold Voice.firstTick; split <;> rfl
@[simp] theorem Voice.firstTick_lfo0 (v : Voice) :
    (v.firstTick).lfo0 =
      v.lfo0 := by unfold Voice.firstTick; split <;> rfl
@[simp] theorem Voice.firstTick_lfo1 (v : Voice) :
    (v.firstTick).lfo1 =
      v.lfo1 := by unfold Voice.firstTick; split <;> rfl
@[simp] theorem Voice.firstTick_shut (v : Voice) :
    (v.firstTick).shut =
      v.shut := by unfold Voice.firstTick; split <;> rfl
@[simp] theorem Voice.firstTick_gofs (v : Voice) :
    (v.firstTick).gofs =
      v.gofs := by unfold Voice.firstTick; split <;> rfl
@[simp] theorem Voice.firstTick_grate (v : Voice) :
    (v.firstTick).grate =
      v.grate := by unfold Voice.firstTick; split <;> rfl
@[simp] theorem Voice.firstTick_desc (v : Voice) :
    (v.firstTick).desc =
      v.desc := by unfold Voice.firstTick; split <;> rfl
@[simp] theorem Voice.firstTick_pos (v : Voice) :
    (v.firstTick).pos =
      v.pos := by unfold Voice.firstTick; split <;> rfl
@[simp] theorem Voice.firstTick_audio (v : Voice) :
    (v.firstTick).audio =
      if v.flags.first then { v.audio with told := v.audio.tnew, aold := v.audio.anew } else v.audio := by
  unfold Voice.firstTick; split <;> rfl
@[simp] theorem Voice.firstTick_stale (v : Voice) :
    (v.firstTick).stale =
      v.stale := by unfold Voice.firstTick; split <;> rfl

/-! ## `Voice.releaseNote` -/

@[simp] theorem Voice.releaseNote_act (v : Voice) : (v.releaseNote).act = v.act := rfl
@[simp] theorem Voice.releaseNote_pend (v : Voice) : (v.releaseNote).pend = v.pend := rfl
@[simp] theorem Voice.releaseNote_ident (v : Voice) : (v.releaseNote).ident = v.ident := rfl
@[simp] theorem Voice.releaseNote_flags (v : Voice) :
    (v.releaseNote).flags =
      { v.flags with on := false, sus := false, sost := false } := rfl
@[simp] theorem Voice.releaseNote_forced (v : Voice) : (v.releaseNote).forced = v.forced := rfl
@[simp] theorem Voice.releaseNote_pp (v : Voice) : (v.releaseNote).pp = v.pp := rfl
@[simp] theorem Voice.releaseNote_dst (v : Voice) : (v.releaseNote).dst = v.dst := rfl
@[simp] theorem Voice.releaseNote_eg0 (v : Voice) : (v.releaseNote).eg0 = v.eg0 := rfl
@[simp] theorem Voice.releaseNote_eg1 (v : Voice) : (v.releaseNote).eg1 = v.eg1 := rfl
@[simp] theorem Voice.releaseNote_lfo0 (v : Voice) : (v.releaseNote).lfo0 = v.lfo0 := rfl
@[simp] theorem Voice.releaseNote_lfo1 (v : Voice) : (v.releaseNote).lfo1 = v.lfo1 := rfl
@[simp] theorem Voice.releaseNote_shut (v : Voice) : (v.releaseNote).shut = v.shut := rfl
@[simp] theorem Voice.releaseNote_gofs (v : Voice) : (v.releaseNote).gofs = v.gofs := rfl
@[simp] theorem Voice.releaseNote_grate (v : Voice) : (v.releaseNote).grate = v.grate := rfl
@[simp] theorem Voice.releaseNote_desc (v : Voice) : (v.releaseNote).desc = v.desc := rfl
@[simp] theorem Voice.releaseNote_pos (v : Voice) :
    (v.releaseNote).pos =
      { v.pos with loopen := v.pos.loopen && !decide (v.desc.lmode = .release) } := rfl
@[simp] theorem Voice.releaseNote_audio (v : Voice) : (v.releaseNote).audio = v.audio := rfl
@[simp] theorem Voice.releaseNote_stale (v : Voice) : (v.releaseNote).stale = v.stale := rfl

/-! ## `Voice.silence` -/

@[simp] theorem Voice.silence_act (v : Voice) : (v.silence).act = v.act := rfl
@[simp] theorem Voice.silence_pend (v : Voice) : (v.silence).pend = v.pend := rfl
@[simp] theorem Voice.silence_ident (v : Voice) : (v.silence).ident = v.ident := rfl
@[simp] theorem Voice.silence_flags (v : Voice) :
    (v.silence).flags =
      { v.flags with on := false, sus := false, sost := false, silencing := true } := rfl
@[simp] theorem Voice.silence_forced (v : Voice) : (v.silence).forced = v.forced := rfl
@[simp] theorem Voice.silence_pp (v : Voice) : (v.silence).pp = v.pp := rfl
@[simp] theorem Voice.silence_dst (v : Voice) : (v.silence).dst = v.dst := rfl
@[simp] theorem Voice.silence_eg0 (v : Voice) : (v.silence).eg0 = v.eg0 := rfl
@[simp] theorem Voice.silence_eg1 (v : Voice) : (v.silence).eg1 = v.eg1 := rfl
@[simp] theorem Voice.silence_lfo0 (v : Voice) : (v.silence).lfo0 = v.lfo0 := rfl
@[simp] theorem Voice.silence_lfo1 (v : Voice) : (v.silence).lfo1 = v.lfo1 := rfl
@[simp] theorem Voice.silence_shut (v : Voice) : (v.silence).shut = v.shut := rfl
@[simp] theorem Voice.silence_gofs (v : Voice) : (v.silence).gofs = v.gofs := rfl
@[simp] theorem Voice.silence_grate (v : Voice) : (v.silence).grate = v.grate := rfl
@[simp] theorem Voice.silence_desc (v : Voice) : (v.silence).desc = v.desc := rfl
@[simp] theorem Voice.silence_pos (v : Voice) :
    (v.silence).pos =
      { v.pos with loopen := v.pos.loopen && !decide (v.desc.lmode = .release) } := rfl
@[simp] theorem Voice.silence_audio (v : Voice) : (v.silence).audio = v.audio := rfl
@[simp] theorem Voice.silence_stale (v : Voice) : (v.silence).stale = v.stale := rfl

/-! ## `Voice.deactivate` -/

@[simp] theorem Voice.deactivate_act (v : Voice) : (v.deactivate).act = false := rfl
@[simp] theorem Voice.deactivate_pend (v : Voice) : (v.deactivate).pend = v.pend := rfl
@[simp] theorem Voice.deactivate_ident (v : Voice) : (v.deactivate).ident = v.ident := rfl
@[simp] theorem Voice.deactivate_flags (v : Voice) : (v.deactivate).flags = v.flags := rfl
@[simp] theorem Voice.deactivate_forced (v : Voice) : (v.deactivate).forced = v.forced := rfl
@[simp] theorem Voice.deactivate_pp (v : Voice) : (v.deactivate).pp = v.pp := rfl
@[simp] theorem Voice.deactivate_dst (v : Voice) : (v.deactivate).dst = v.dst := rfl
@[simp] theorem Voice.deactivate_eg0 (v : Voice) : (v.deactivate).eg0 = v.eg0 := rfl
@[simp] theorem Voice.deactivate_eg1 (v : Voice) : (v.deactivate).eg1 = v.eg1 := rfl
@[simp] theorem Voice.deactivate_lfo0 (v : Voice) : (v.deactivate).lfo0 = v.lfo0 := rfl
@[simp] theorem Voice.deactivate_lfo1 (v : Voice) : (v.deactivate).lfo1 = v.lfo1 := rfl
@[simp] theorem Voice.deactivate_shut (v : Voice) : (v.deactivate).shut = v.shut := rfl
@[simp] theorem Voice.deactivate_gofs (v : Voice) : (v.deactivate).gofs = v.gofs := rfl
@[simp] theorem Voice.deactivate_grate (v : Voice) : (v.deactivate).grate = v.grate := rfl
@[simp] theorem Voice.deactivate_desc (v : Voice) : (v.deactivate).desc = v.desc := rfl
@[simp] theorem Voice.deactivate_pos (v : Voice) : (v.deactivate).pos = v.pos := rfl
@[simp] theorem Voice.deactivate_audio (v : Voice) : (v.deactivate).audio = v.audio := rfl
@[simp] theorem Voice.deactivate_stale (v : Voice) : (v.deactivate).stale = [] := rfl

/-! ## `Voice.startLfos` -/

@[simp] theorem Voice.startLfos_act (v : Voice) : (v.startLfos).act = v.act := rfl
@[simp] theorem Voice.startLfos_pend (v : Voice) : (v.startLfos).pend = v.pend := rfl
@[simp] theorem Voice.startLfos_ident (v : Voice) : (v.startLfos).ident = v.ident := rfl
@[simp] theorem Voice.startLfos_flags (v : Voice) : (v.startLfos).flags = v.flags := rfl
@[simp] theorem Voice.startLfos_forced (v : Voice) : (v.startLfos).forced = v.forced := rfl
@[simp] theorem Voice.startLfos_pp (v : Voice) : (v.startLfos).pp = v.pp := rfl
@[simp] theorem Voice.startLfos_dst (v : Voice) : (v.startLfos).dst = v.dst := rfl
@[simp] theorem Voice.startLfos_eg0 (v : Voice) : (v.startLfos).eg0 = v.eg0 := rfl
@[simp] theorem Voice.startLfos_eg1 (v : Voice) : (v.startLfos).eg1 = v.eg1 := rfl
@[simp] theorem Voice.startLfos_lfo0 (v : Voice) :
    (v.startLfos).lfo0 =
      { v.lfo0 with dcnt := lfoDelay (v.dstVal 13) } := rfl
@[simp] theorem Voice.startLfos_lfo1 (v : Voice) :
    (v.startLfos).lfo1 =
      { v.lfo1 with dcnt := lfoDelay (v.dstVal 15) } := rfl
@[simp] theorem Voice.startLfos_shut (v : Voice) : (v.startLfos).shut = v.shut := rfl
@[simp] theorem Voice.startLfos_gofs (v : Voice) : (v.startLfos).gofs = v.gofs := rfl
@[simp] theorem Voice.startLfos_grate (v : Voice) : (v.startLfos).grate = v.grate := rfl
@[simp] theorem Voice.startLfos_desc (v : Voice) : (v.startLfos).desc = v.desc := rfl
@[simp] theorem Voice.startLfos_pos (v : Voice) : (v.startLfos).pos = v.pos := rfl
@[simp] theorem Voice.startLfos_audio (v : Voice) : (v.startLfos).audio = v.audio := rfl
@[simp] theorem Voice.startLfos_stale (v : Voice) : (v.startLfos).stale = v.stale := rfl

/-! ## `Voice.noteRewrite` -/

@[simp] theorem Voice.noteRewrite_act (a : Nat) (old : BitVec 16) (v : Voice) :
    (v.noteRewrite a old).act =
      v.act := by unfold Voice.noteRewrite; split <;> rfl
@[simp] theorem Voice.noteRewrite_pend (a : Nat) (old : BitVec 16) (v : Voice) :
    (v.noteRewrite a old).pend =
      v.pend := by unfold Voice.noteRewrite; split <;> rfl
@[simp] theorem Voice.noteRewrite_ident (a : Nat) (old : BitVec 16) (v : Voice) :
    (v.noteRewrite a old).ident =
      v.ident := by unfold Voice.noteRewrite; split <;> rfl
@[simp] theorem Voice.noteRewrite_flags (a : Nat) (old : BitVec 16) (v : Voice) :
    (v.noteRewrite a old).flags =
      v.flags := by unfold Voice.noteRewrite; split <;> rfl
@[simp] theorem Voice.noteRewrite_forced (a : Nat) (old : BitVec 16) (v : Voice) :
    (v.noteRewrite a old).forced =
      v.forced := by unfold Voice.noteRewrite; split <;> rfl
@[simp] theorem Voice.noteRewrite_pp (a : Nat) (old : BitVec 16) (v : Voice) :
    (v.noteRewrite a old).pp =
      v.pp := by unfold Voice.noteRewrite; split <;> rfl
@[simp] theorem Voice.noteRewrite_dst (a : Nat) (old : BitVec 16) (v : Voice) :
    (v.noteRewrite a old).dst =
      v.dst := by unfold Voice.noteRewrite; split <;> rfl
@[simp] theorem Voice.noteRewrite_eg0 (a : Nat) (old : BitVec 16) (v : Voice) :
    (v.noteRewrite a old).eg0 =
      v.eg0 := by unfold Voice.noteRewrite; split <;> rfl
@[simp] theorem Voice.noteRewrite_eg1 (a : Nat) (old : BitVec 16) (v : Voice) :
    (v.noteRewrite a old).eg1 =
      v.eg1 := by unfold Voice.noteRewrite; split <;> rfl
@[simp] theorem Voice.noteRewrite_lfo0 (a : Nat) (old : BitVec 16) (v : Voice) :
    (v.noteRewrite a old).lfo0 =
      v.lfo0 := by unfold Voice.noteRewrite; split <;> rfl
@[simp] theorem Voice.noteRewrite_lfo1 (a : Nat) (old : BitVec 16) (v : Voice) :
    (v.noteRewrite a old).lfo1 =
      v.lfo1 := by unfold Voice.noteRewrite; split <;> rfl
@[simp] theorem Voice.noteRewrite_shut (a : Nat) (old : BitVec 16) (v : Voice) :
    (v.noteRewrite a old).shut =
      v.shut := by unfold Voice.noteRewrite; split <;> rfl
@[simp] theorem Voice.noteRewrite_gofs (a : Nat) (old : BitVec 16) (v : Voice) :
    (v.noteRewrite a old).gofs =
      v.gofs := by unfold Voice.noteRewrite; split <;> rfl
@[simp] theorem Voice.noteRewrite_grate (a : Nat) (old : BitVec 16) (v : Voice) :
    (v.noteRewrite a old).grate =
      v.grate := by unfold Voice.noteRewrite; split <;> rfl
@[simp] theorem Voice.noteRewrite_desc (a : Nat) (old : BitVec 16) (v : Voice) :
    (v.noteRewrite a old).desc =
      v.desc := by unfold Voice.noteRewrite; split <;> rfl
@[simp] theorem Voice.noteRewrite_pos (a : Nat) (old : BitVec 16) (v : Voice) :
    (v.noteRewrite a old).pos =
      v.pos := by unfold Voice.noteRewrite; split <;> rfl
@[simp] theorem Voice.noteRewrite_audio (a : Nat) (old : BitVec 16) (v : Voice) :
    (v.noteRewrite a old).audio =
      v.audio := by unfold Voice.noteRewrite; split <;> rfl
@[simp] theorem Voice.noteRewrite_stale (a : Nat) (old : BitVec 16) (v : Voice) :
    (v.noteRewrite a old).stale =
      if v.act && v.desc.covers a then (a, old) :: v.stale else v.stale := by
  unfold Voice.noteRewrite; split <;> rfl

/-! ## `Voice.takeover` -/

@[simp] theorem Voice.takeover_act (r : LaunchRec) (v : Voice) : (v.takeover r).act = v.act := rfl
@[simp] theorem Voice.takeover_pend (r : LaunchRec) (v : Voice) :
    (v.takeover r).pend =
      { valid := true, launch := r } := rfl
@[simp] theorem Voice.takeover_ident (r : LaunchRec) (v : Voice) : (v.takeover r).ident = v.ident := rfl
@[simp] theorem Voice.takeover_flags (r : LaunchRec) (v : Voice) :
    (v.takeover r).flags =
      { v.flags with on := false, sus := false, sost := false, silencing := true } := rfl
@[simp] theorem Voice.takeover_forced (r : LaunchRec) (v : Voice) : (v.takeover r).forced = v.forced := rfl
@[simp] theorem Voice.takeover_pp (r : LaunchRec) (v : Voice) : (v.takeover r).pp = v.pp := rfl
@[simp] theorem Voice.takeover_dst (r : LaunchRec) (v : Voice) : (v.takeover r).dst = v.dst := rfl
@[simp] theorem Voice.takeover_eg0 (r : LaunchRec) (v : Voice) : (v.takeover r).eg0 = v.eg0 := rfl
@[simp] theorem Voice.takeover_eg1 (r : LaunchRec) (v : Voice) : (v.takeover r).eg1 = v.eg1 := rfl
@[simp] theorem Voice.takeover_lfo0 (r : LaunchRec) (v : Voice) : (v.takeover r).lfo0 = v.lfo0 := rfl
@[simp] theorem Voice.takeover_lfo1 (r : LaunchRec) (v : Voice) : (v.takeover r).lfo1 = v.lfo1 := rfl
@[simp] theorem Voice.takeover_shut (r : LaunchRec) (v : Voice) : (v.takeover r).shut = v.shut := rfl
@[simp] theorem Voice.takeover_gofs (r : LaunchRec) (v : Voice) : (v.takeover r).gofs = v.gofs := rfl
@[simp] theorem Voice.takeover_grate (r : LaunchRec) (v : Voice) : (v.takeover r).grate = v.grate := rfl
@[simp] theorem Voice.takeover_desc (r : LaunchRec) (v : Voice) : (v.takeover r).desc = v.desc := rfl
@[simp] theorem Voice.takeover_pos (r : LaunchRec) (v : Voice) :
    (v.takeover r).pos =
      { v.pos with loopen := v.pos.loopen && !decide (v.desc.lmode = .release) } := rfl
@[simp] theorem Voice.takeover_audio (r : LaunchRec) (v : Voice) : (v.takeover r).audio = v.audio := rfl
@[simp] theorem Voice.takeover_stale (r : LaunchRec) (v : Voice) : (v.takeover r).stale = v.stale := rfl

/-! ## `Voice.setAudio`, field by field -/

theorem Audio.retarget_told (a : Audio) (x : BitVec 32) (y l r : BitVec 16) (m : Bool) (e c : BitVec 16) :
    ({ a with tnew := x, anew := y, gl := l, gr := r, mono := m, rv := e, ch := c } : Audio).told = a.told := rfl
theorem Audio.retarget_aold (a : Audio) (x : BitVec 32) (y l r : BitVec 16) (m : Bool) (e c : BitVec 16) :
    ({ a with tnew := x, anew := y, gl := l, gr := r, mono := m, rv := e, ch := c } : Audio).aold = a.aold := rfl
@[simp] theorem Voice.setAudio_told (cfg : Config) (v : Voice) :
    (v.setAudio cfg).audio.told = v.audio.told := Audio.retarget_told _ _ _ _ _ _ _ _
@[simp] theorem Voice.setAudio_aold (cfg : Config) (v : Voice) :
    (v.setAudio cfg).audio.aold = v.audio.aold := Audio.retarget_aold _ _ _ _ _ _ _ _
@[simp] theorem Voice.setAudio_tnew (cfg : Config) (v : Voice) :
    (v.setAudio cfg).audio.tnew = BitVec.ofNat 32 (stepOf cfg v.desc v.pitch) := rfl
@[simp] theorem Voice.setAudio_anew (cfg : Config) (v : Voice) :
    (v.setAudio cfg).audio.anew = BitVec.ofNat 16 v.amplitude := rfl
@[simp] theorem Voice.setAudio_gl (cfg : Config) (v : Voice) :
    (v.setAudio cfg).audio.gl = BitVec.ofNat 16 (gainL (panPos (v.dstVal 18)) (panPos (v.dstVal 19))) := rfl
@[simp] theorem Voice.setAudio_gr (cfg : Config) (v : Voice) :
    (v.setAudio cfg).audio.gr = BitVec.ofNat 16 (gainR (panPos (v.dstVal 18)) (panPos (v.dstVal 19))) := rfl
@[simp] theorem Voice.setAudio_rv (cfg : Config) (v : Voice) :
    (v.setAudio cfg).audio.rv = BitVec.ofNat 16 (levelOf (v.dstVal 20)) := rfl
@[simp] theorem Voice.setAudio_ch (cfg : Config) (v : Voice) :
    (v.setAudio cfg).audio.ch = BitVec.ofNat 16 (levelOf (v.dstVal 21)) := rfl

/-! ## Control logic as a whole (R310 to R319): what it leaves alone, and the first of what it writes -/

@[simp] theorem controlLogic_act (s : State) (v : Voice) : (controlLogic s v).act = v.act := by simp [controlLogic]
@[simp] theorem controlLogic_pend (s : State) (v : Voice) : (controlLogic s v).pend = v.pend := by simp [controlLogic]
@[simp] theorem controlLogic_ident (s : State) (v : Voice) : (controlLogic s v).ident = v.ident := by simp [controlLogic]
@[simp] theorem controlLogic_forced (s : State) (v : Voice) : (controlLogic s v).forced = v.forced := by simp [controlLogic]
@[simp] theorem controlLogic_pp (s : State) (v : Voice) : (controlLogic s v).pp = v.pp := by simp [controlLogic]
@[simp] theorem controlLogic_grate (s : State) (v : Voice) : (controlLogic s v).grate = v.grate := by simp [controlLogic]
@[simp] theorem controlLogic_desc (s : State) (v : Voice) : (controlLogic s v).desc = v.desc := by simp [controlLogic]
@[simp] theorem controlLogic_pos (s : State) (v : Voice) : (controlLogic s v).pos = v.pos := by simp [controlLogic]
@[simp] theorem controlLogic_stale (s : State) (v : Voice) : (controlLogic s v).stale = v.stale := by simp [controlLogic]
@[simp] theorem controlLogic_gofs (s : State) (v : Voice) : (controlLogic s v).gofs = glideStep v.gofs v.grate := by simp [controlLogic]
@[simp] theorem controlLogic_dst (s : State) (v : Voice) : (controlLogic s v).dst = (evalTick s v.glide).dst := by simp [controlLogic]

end Sys2Proof.Machine
end

