-- ==== Sys2Proof/Laws/Voices.lean ====
section
/-! SUPPORT. Properties of every voice slot: what a change must keep for every step to keep it, and what each change does to
the fields of one voice. -/

namespace Sys2Proof.Machine

/-! ## A property of every slot -/

/-- A property of one voice that every change of a slot keeps. -/
structure KeepsVoice (Q : Config → Voice → Prop) : Prop where
  reset : ∀ cfg, Q cfg Voice.reset
  edit : ∀ s v v', VoiceEdit s v v' → Q s.cfg v → Q s.cfg v'
  promote : ∀ s v, Q s.cfg v → Q s.cfg (promoteVoice s v)
  control : ∀ s v, v.act = true → Q s.cfg v → Q s.cfg (controlLogic s v)
  finish : ∀ s v ctr, v.act = true → Q s.cfg v → Q s.cfg (v.finish (renderVoice s v ctr).pos)
  rewrite : ∀ (cfg : Config) v a old, Q cfg v → Q cfg (v.noteRewrite a old)

/-- A slot update, seen from the list: an element of the new list is the new voice or was there. -/
theorem mem_modify_const {vs : List Voice} {n : Nat} {v x : Voice} (h : x ∈ vs.modify n fun _ => v) :
    (x = v ∧ n < vs.length) ∨ x ∈ vs := by
  obtain ⟨i, hi, rfl⟩ := List.mem_iff_getElem.mp h
  rw [List.getElem_modify]
  rw [List.length_modify] at hi
  split
  · rename_i hn; exact .inl ⟨rfl, hn ▸ hi⟩
  · exact .inr (List.getElem_mem _)

namespace KeepsVoice

variable {Q : Config → Voice → Prop} (h : KeepsVoice Q)
include h

theorem keepsTick : KeepsTick fun s => ∀ v ∈ s.voices, Q s.cfg v where
  delayIn _ hs := hs
  count _ hs := hs
  off s c hs := by
    intro v hv
    obtain ⟨x, hx, rfl⟩ := List.mem_map.mp hv
    exact h.edit s x _ (.off x c true) (hs x hx)
  fired _ hs := hs
  promote s hs := by
    intro v hv
    obtain ⟨x, hx, rfl⟩ := List.mem_map.mp hv
    exact h.promote s x (hs x hx)
  control s hs := by
    intro v hv
    obtain ⟨x, hx, rfl⟩ := List.mem_map.mp hv
    show Q s.cfg (controlVoice s x)
    unfold controlVoice
    split
    · rename_i ha; exact h.control s x ha (hs x hx)
    · exact hs x hx
  fxCtl _ hs := hs
  audio s hs := by
    intro v hv
    have hall := audioVoices_voices s s.voices s.buses s.err s.freeCtr
    obtain ⟨i, hi, rfl⟩ := List.mem_iff_getElem.mp hv
    have hlen := hall.length_eq
    have hi' : i < s.voices.length := by rw [hlen]; exact hi
    have hstep := hall.get hi' hi
    have hq := hs _ (List.getElem_mem hi')
    rcases hstep with ⟨-, heq⟩ | ⟨ha, c, heq⟩
    · exact Eq.mpr (congrArg (Q s.cfg) heq) hq
    · exact Eq.mpr (congrArg (Q s.cfg) heq) (h.finish s _ c ha hq)
  fold _ hs := hs
  fxAud _ hs := hs
  output s hs := by
    obtain ⟨c, h1, -⟩ := tickOutput_eq s
    rw [h1]
    exact hs

/-- A property of one voice that every change of a slot keeps holds of every slot after every step. -/
theorem keeps : Keeps fun s => ∀ v ∈ s.voices, Q s.cfg v where
  pop _ _ hs := hs
  mark _ hs := hs
  raise _ _ hs := hs
  respond _ _ hs := hs
  opens _ hs _ := hs
  closes s _ := by
    intro v hv
    exact (List.eq_of_mem_replicate hv) ▸ h.reset s.cfg
  resets s _ := by
    intro v hv
    exact (List.eq_of_mem_replicate hv) ▸ h.reset s.cfg
  master s n d hs := by unfold State.setMaster; split <;> exact hs
  asense _ _ hs := hs
  errclr _ _ hs := hs
  ienset _ _ hs := hs
  chan _ _ _ hs _ _ := hs
  voices s f hs _ hf := by
    intro v hv
    obtain ⟨x, hx, rfl⟩ := List.mem_map.mp hv
    exact h.edit s x _ (hf x) (hs x hx)
  voice s n v hs _ hv := by
    intro x hx
    rcases mem_modify_const hx with ⟨rfl, hn⟩ | hx
    · exact h.edit s _ _ hv (hs _ (s.voice_mem hn))
    · exact hs x hx
  wptr _ _ hs _ := hs
  wwr s x hs _ := by
    intro v hv
    obtain ⟨y, hy, rfl⟩ := List.mem_map.mp hv
    exact h.rewrite s.cfg y _ _ (hs y hy)
  wtwr _ _ _ _ hs _ _ := hs
  cbwr _ _ _ _ hs _ _ := hs
  lrwr _ _ _ hs := hs
  idle _ hs _ _ _ := hs
  ticks _ hs _ _ _ := h.keepsTick.tick hs
  pull _ hs _ _ := hs

end KeepsVoice

/-! ## What the phases of a tick leave of a voice -/

/-- The end of a voice's audio logic (R325). -/
theorem Voice.finish_eq (v : Voice) (p : Pos) : v.finish p =
    { v with
      pos := p
      audio := { v.audio with told := v.audio.tnew, aold := v.audio.anew }
      flags := { v.flags with first := false }
      act := v.act && !(v.flags.final || p.ended)
      stale := if v.flags.final || p.ended then [] else v.stale } := by
  unfold Voice.finish
  cases hc : (v.flags.final || p.ended) <;> simp [Voice.deactivate]

/-! ## The ranges of a voice's registers -/

/-- An envelope step gives a level in range, from one in range (R245 to R249). -/
theorem egStepStage_level {st : EgStage} {level a d sl r : Nat} (hl : level ≤ 32768) (hs : sl ≤ 32768) :
    (egStepStage st level a d sl r).level.toNat ≤ 32768 := by
  cases st <;> simp only [egStepStage, one]
  · exact ofNat16_le hl
  · exact ofNat16_le (by omega)
  · split
    · exact ofNat16_le hs
    · exact ofNat16_le (by omega)
  · exact ofNat16_le hs
  · exact ofNat16_le (by omega)
  · exact ofNat16_le hl

/-- An oscillator's output is in range after every step (R253, R254). -/
theorem lfoAdvance_out_le (cfg : Config) (o : Lfo) (f : Int) : (lfoAdvance cfg o f).out.toNat ≤ 32768 := by
  unfold lfoAdvance
  split
  · exact lfoTri_le _
  · simp

/-- The amplitude target is a Q15 value (R317). -/
theorem Voice.amplitude_le {v : Voice} (h : v.shut.toNat ≤ 32768) : v.amplitude ≤ 32768 := by
  unfold Voice.amplitude
  split
  · omega
  · exact q15_mul_le (cbToAmp_le _) h

/-- A step fits in 31 bits (R277). -/
theorem stepOf_lt (cfg : Config) (d : Desc) (c : Int) : stepOf cfg d c < 2147483648 := by
  unfold stepOf; omega

/-! ## The read position -/

/-- What advancing does to a position: the fraction, then whole steps (R276). -/
theorem stepWhole_induct {d : Desc} {P : Pos → Prop} (hend : ∀ p, P p → P { p with ended := true })
    (hnext : ∀ p, P p → (p.neighbour d).ended = false →
      P { p with srci := BitVec.ofNat 32 (p.neighbour d).idx, dir := (p.neighbour d).dir })
    (k : Nat) (p : Pos) (hp : P p) : P (stepWhole d k p) := by
  induction k generalizing p with
  | zero => exact hp
  | succ k ih =>
    unfold stepWhole
    split
    · exact hend p hp
    · rename_i he; exact ih _ (hnext p hp (by simpa using he))

end Sys2Proof.Machine
end

