-- ==== Sys2Proof/Laws/TickVoices.lean ====
section
/-! SUPPORT. The tick seen from one slot (R300): what the voices read of the state does not change inside a tick, so a slot's
voice after a tick is the composition of the phases on that voice alone. -/

namespace Sys2Proof.Machine

/-! ## What a voice reads of the state -/

/-- Two states that agree on all that `Validate`, the graph and the resampler read. -/
structure SameInputs (s t : State) : Prop where
  cfg     : t.cfg = s.cfg
  chans   : t.chans = s.chans
  mvol    : t.mvol = s.mvol
  mbal    : t.mbal = s.mbal
  mfine   : t.mfine = s.mfine
  mcoarse : t.mcoarse = s.mcoarse
  wave    : t.wave = s.wave
  wt      : t.wt = s.wt
  cb      : t.cb = s.cb
  epoch   : t.epoch = s.epoch

namespace SameInputs

theorem refl (s : State) : SameInputs s s := ⟨rfl, rfl, rfl, rfl, rfl, rfl, rfl, rfl, rfl, rfl⟩

variable {s t u : State}

theorem trans (h : SameInputs s t) (k : SameInputs t u) : SameInputs s u :=
  ⟨k.cfg.trans h.cfg, k.chans.trans h.chans, k.mvol.trans h.mvol, k.mbal.trans h.mbal, k.mfine.trans h.mfine,
    k.mcoarse.trans h.mcoarse, k.wave.trans h.wave, k.wt.trans h.wt, k.cb.trans h.cb, k.epoch.trans h.epoch⟩

variable (h : SameInputs s t)
include h

theorem waveRead (a : Nat) : t.waveRead a = s.waveRead a := by unfold State.waveRead; rw [h.wave, h.epoch]
theorem wtRead (i f : Nat) : t.wtRead i f = s.wtRead i f := by unfold State.wtRead; rw [h.wt, h.epoch]
theorem cbRead (i f : Nat) : t.cbRead i f = s.cbRead i f := by unfold State.cbRead; rw [h.cb, h.epoch]
theorem chan (c : BitVec 4) : t.chan c = s.chan c := by unfold State.chan; rw [h.chans]

theorem descAt (i : Nat) : t.descAt i = s.descAt i := by simp only [State.descAt, h.wtRead]
theorem cbAt (i : Nat) : t.cbAt i = s.cbAt i := by simp only [State.cbAt, h.cbRead]
theorem blockList (v : Voice) : blockList t v = Machine.blockList s v := by simp only [Machine.blockList, h.cbAt]

theorem sourceValue (v : Voice) (x : Source) : sourceValue t v x = Machine.sourceValue s v x := by
  cases x <;> simp only [Machine.sourceValue, h.chan, h.mvol, h.mbal, h.mfine, h.mcoarse]

theorem transform (v : Voice) (sel : BitVec 16) (xf : BitVec 8) : transform t v sel xf = Machine.transform s v sel xf := by
  simp only [Machine.transform, h.cfg, h.sourceValue]

theorem contribution (v : Voice) : contribution t v = Machine.contribution s v := by
  funext e; simp only [Machine.contribution, h.transform]

theorem dstSum (v : Voice) (es : List CbEntry) (k : Nat) : dstSum t v es k = Machine.dstSum s v es k := by
  simp only [Machine.dstSum, h.contribution]

theorem evalTick (v : Voice) : evalTick t v = Machine.evalTick s v := by
  simp only [Machine.evalTick, h.dstSum, h.blockList]

theorem targets (v : Voice) (k : Nat) : targets t v k = Machine.targets s v k := by
  simp only [Machine.targets, h.blockList]

theorem evalInit (v : Voice) : evalInit t v = Machine.evalInit s v := by
  simp only [Machine.evalInit, h.dstSum, h.blockList, h.targets]

theorem evalTickBad (v : Voice) : evalTickBad t v = Machine.evalTickBad s v := by
  simp only [Machine.evalTickBad, h.blockList, h.cfg]

theorem evalInitBad (v : Voice) : evalInitBad t v = Machine.evalInitBad s v := by
  simp only [Machine.evalInitBad, h.blockList, h.cfg]

theorem validate (r : LaunchRec) : validate t r = Machine.validate s r := by
  simp only [Machine.validate, h.cfg, h.descAt]

theorem freshVoice (r : LaunchRec) : freshVoice t r = Machine.freshVoice s r := by
  simp only [Machine.freshVoice, h.descAt]

theorem initVoice (r : LaunchRec) : initVoice t r = Machine.initVoice s r := by
  simp only [Machine.initVoice, h.freshVoice, h.evalInit, h.evalTick]

theorem initBad (r : LaunchRec) : initBad t r = Machine.initBad s r := by
  simp only [Machine.initBad, h.freshVoice, h.evalInit, h.evalInitBad, h.evalTickBad]

theorem promoteVoice (v : Voice) : promoteVoice t v = Machine.promoteVoice s v := by
  simp only [Machine.promoteVoice, h.validate, h.initVoice]

theorem promoteErr (v : Voice) : promoteErr t v = Machine.promoteErr s v := by
  simp only [Machine.promoteErr, h.validate, h.initBad]

theorem controlLogic (v : Voice) : controlLogic t v = Machine.controlLogic s v := by
  simp only [Machine.controlLogic, h.evalTick, h.cfg]

theorem controlVoice (v : Voice) : controlVoice t v = Machine.controlVoice s v := by
  simp only [Machine.controlVoice, h.controlLogic]

theorem controlErr (v : Voice) : controlErr t v = Machine.controlErr s v := by
  simp only [Machine.controlErr, h.evalTickBad]

theorem voiceRead (stale : List (Nat × BitVec 16)) (ctr a : Nat) : t.voiceRead stale ctr a = s.voiceRead stale ctr a := by
  simp only [State.voiceRead, h.waveRead]

theorem interp (stale : List (Nat × BitVec 16)) (d : Desc) (p : Pos) (ctr : Nat) :
    interp t stale d p ctr = Machine.interp s stale d p ctr := by
  simp only [Machine.interp, h.voiceRead]

theorem renderFrames (v : Voice) (k j : Nat) (p : Pos) (ctr : Nat) :
    renderFrames t v k j p ctr = Machine.renderFrames s v k j p ctr := by
  induction k generalizing j p ctr with
  | zero => rfl
  | succ k ih => simp only [Machine.renderFrames, h.interp, h.cfg, ih]

theorem renderVoice (v : Voice) (ctr : Nat) : renderVoice t v ctr = Machine.renderVoice s v ctr := by
  simp only [Machine.renderVoice, h.cfg, h.renderFrames]

end SameInputs

/-! ## The phases of a tick keep what the voices read -/

theorem sameInputs_delayIn (s : State) : SameInputs s (delayIn s) := ⟨rfl, rfl, rfl, rfl, rfl, rfl, rfl, rfl, rfl, rfl⟩

theorem sameInputs_watchdog (s : State) : SameInputs s (watchdog s) := by constructor <;> simp

theorem sameInputs_promoteAll (s : State) : SameInputs s (promoteAll s) := by constructor <;> simp

theorem sameInputs_controlAll (s : State) : SameInputs s (controlAll s) := by constructor <;> simp

theorem sameInputs_fxControl (s : State) : SameInputs s (fxControl s) := by constructor <;> simp

/-- The state in which a tick evaluates the graph reads as the state at its start. -/
theorem sameInputs_beforeControl (s : State) : SameInputs s (promoteAll (watchdog (delayIn s))) :=
  (sameInputs_delayIn s).trans ((sameInputs_watchdog _).trans (sameInputs_promoteAll _))

/-- The state in which a tick renders reads as the state at its start. -/
theorem sameInputs_beforeAudio (s : State) :
    SameInputs s (fxControl (controlAll (promoteAll (watchdog (delayIn s))))) :=
  (sameInputs_beforeControl s).trans ((sameInputs_controlAll _).trans (sameInputs_fxControl _))

/-! ## The watchdog, seen from one slot -/

/-- A silenced voice stays silenced under another silencing. -/
theorem Voice.silence_silence (v : Voice) : v.silence.silence = v.silence := by
  by_cases h : v.desc.lmode = .release <;> simp [Voice.silence, Voice.releaseNote, h]

/-- All-sound-off over a list of channels, for one slot. -/
def Voice.offAll (v : Voice) (cs : List Nat) : Voice := cs.foldl (fun v c => v.channelOff (BitVec.ofNat 4 c) true) v

theorem foldl_channelOff_voices (s : State) (cs : List Nat) :
    (cs.foldl (fun s c => s.channelOff (BitVec.ofNat 4 c) true) s).voices = s.voices.map fun v => v.offAll cs := by
  induction cs generalizing s with
  | nil => simp [Voice.offAll]
  | cons c cs ih =>
    rw [List.foldl_cons, ih]
    simp [Voice.offAll, State.channelOff]

/-- What one `ChannelOff(c, 1)` makes of a slot: its queued note goes if it is of the channel, its voice is silenced if it is
(R147). -/
theorem Voice.channelOff_true (v : Voice) (c : BitVec 4) : v.channelOff c true =
    { (if v.act = true ∧ v.ident.chan = c then v.silence else v) with
      pend := if v.pend.valid = true ∧ v.pend.launch.chan = c then { v.pend with valid := false } else v.pend } := by
  unfold Voice.channelOff Voice.offVoice Voice.dropPend Voice.silence Voice.releaseNote
  by_cases h1 : v.pend.valid = true ∧ v.pend.launch.chan = c <;> by_cases h2 : v.act = true ∧ v.ident.chan = c <;>
    simp [h1, h2]

/-- What `ChannelOff(c, 1)` over channels `cs` makes of a slot. -/
theorem Voice.offAll_eq (v : Voice) (cs : List Nat) : v.offAll cs =
    { (if v.act = true ∧ v.ident.chan ∈ cs.map (BitVec.ofNat 4) then v.silence else v) with
      pend :=
        if v.pend.valid = true ∧ v.pend.launch.chan ∈ cs.map (BitVec.ofNat 4) then { v.pend with valid := false }
        else v.pend } := by
  induction cs generalizing v with
  | nil => simp [Voice.offAll]
  | cons c cs ih =>
    have h : v.offAll (c :: cs) = (v.channelOff (BitVec.ofNat 4 c) true).offAll cs := rfl
    rw [h, ih, Voice.channelOff_true]
    have hs : v.silence.act = v.act := rfl
    have hi : v.silence.ident = v.ident := rfl
    by_cases h1 : v.pend.valid = true ∧ v.pend.launch.chan = BitVec.ofNat 4 c <;>
      by_cases h2 : v.act = true ∧ v.ident.chan = BitVec.ofNat 4 c <;>
        by_cases h3 : v.act = true <;> by_cases h4 : v.pend.valid = true <;>
          simp_all [Voice.silence, Voice.releaseNote] <;> split_ifs <;> simp_all

/-- Every channel is one of the sixteen. -/
theorem mem_allChannels (c : BitVec 4) : c ∈ (List.range 16).map (BitVec.ofNat 4) := by revert c; decide

/-- What the watchdog makes of a slot when it fires: no queued note, and a silenced voice (R302). -/
def Voice.allOff (v : Voice) : Voice :=
  { (if v.act then v.silence else v) with pend := if v.pend.valid then { v.pend with valid := false } else v.pend }

theorem Voice.offAll_all (v : Voice) {cs : List Nat} (h : ∀ c, c ∈ cs.map (BitVec.ofNat 4)) : v.offAll cs = v.allOff := by
  rw [Voice.offAll_eq, Voice.allOff]
  simp only [h, and_true]

theorem allSoundOff_voices (s : State) : (allSoundOff s).voices = s.voices.map Voice.allOff := by
  have h := foldl_channelOff_voices s (List.range 16)
  have e : (fun v : Voice => v.offAll (List.range 16)) = Voice.allOff :=
    funext fun v => v.offAll_all mem_allChannels
  rw [e] at h
  exact h

/-- The slots after step 2 (R302). -/
theorem watchdog_voices (s : State) :
    (watchdog s).voices = if s.watchdogFires = true then s.voices.map Voice.allOff else s.voices := by
  unfold watchdog
  split
  · have h := allSoundOff_voices { s with ascnt := countUp s.ascnt }
    generalize allSoundOff { s with ascnt := countUp s.ascnt } = u at h ⊢
    exact h
  · rfl

/-! ## What the control logic leaves of flags and the shutdown gain -/

@[simp] theorem controlLogic_shut (s : State) (v : Voice) : (controlLogic s v).shut =
    if v.flags.silencing then BitVec.ofNat 16 (v.shut.toNat - s.cfg.shutStep) else v.shut := by simp [controlLogic]

/-- The control logic writes one flag, `FINAL` (R315). -/
theorem controlLogic_flags (s : State) (v : Voice) : (controlLogic s v).flags =
    { v.flags with
      final := decide ((controlLogic s v).eg0.stage = .done) ||
        (v.flags.silencing && decide ((controlLogic s v).shut = 0)) } := by
  simp [controlLogic, Voice.isFinal]

/-! ## The transition of a due tick -/

/-- When the watchdog fires, in plain numbers (R302). -/
theorem watchdogFires_iff (s : State) : s.watchdogFires = true ↔
    s.asen = true ∧ s.cfg.fs / s.cfg.chunk < min (s.ascnt.toNat + 1) 65535 := by
  unfold State.watchdogFires countUp Config.asenseLimit Config.ctrlRate
  simp only [Bool.and_eq_true, decide_eq_true_eq, BitVec.toNat_ofNat]
  rw [Nat.mod_eq_of_lt (by omega)]

/-- A `Refill` of an open machine with an empty buffer that is not idle is a tick (R81). -/
theorem step_tick {s : State} {rest : List Event} (h : s.sched = .refill :: rest) (hr : s.run = true)
    (ho : s.outrd = s.cfg.outBytes) (hi : s.idle = false) : step s = .next (tick { s with sched := rest }) := by
  unfold step
  rw [takeEvent_cons h]
  simp [refill, State.refillEnabled, hr, hi, ho]

/-! ## The tick, seen from one slot -/

/-- The voice of a slot when the control logic of a tick begins: after the watchdog and the promotion (R302, R303). -/
def voiceAtControl (s : State) (v : Voice) : Voice := promoteVoice s (if s.watchdogFires then v.allOff else v)

/-- The voice of a slot when the audio logic of a tick begins. -/
def voiceAtAudio (s : State) (v : Voice) : Voice := controlVoice s (voiceAtControl s v)

/-- The slots when the audio logic of a tick begins. -/
theorem voices_beforeAudio (s : State) :
    (fxControl (controlAll (promoteAll (watchdog (delayIn s))))).voices = s.voices.map (voiceAtAudio s) := by
  have h1 := (sameInputs_delayIn s).trans (sameInputs_watchdog _)
  have h2 := sameInputs_beforeControl s
  have hp : promoteVoice (watchdog (delayIn s)) = promoteVoice s := funext h1.promoteVoice
  have hc : controlVoice (promoteAll (watchdog (delayIn s))) = controlVoice s := funext h2.controlVoice
  have hf : (delayIn s).watchdogFires = s.watchdogFires := rfl
  have hv : (delayIn s).voices = s.voices := rfl
  have e1 : ∀ s, (controlAll s).voices = s.voices.map (controlVoice s) := fun _ => rfl
  have e2 : ∀ s, (promoteAll s).voices = s.voices.map (promoteVoice s) := fun _ => rfl
  rw [fxControl_voices, e1, e2, watchdog_voices, hp, hc, hf, hv]
  unfold voiceAtAudio voiceAtControl
  split
  · simp [List.map_map, Function.comp_def]
  · simp [List.map_map, Function.comp_def]

/-- The voice of a slot after a tick: as it stood before the audio logic if inactive, else with its chunk rendered and
finished (R300, R320, R325). -/
theorem tick_voice (s : State) {v : Nat} (hv : v < s.voices.length) : ∃ ctr : Nat,
    (tick s).voice v =
      if (voiceAtAudio s (s.voice v)).act = true then
        (voiceAtAudio s (s.voice v)).finish (renderVoice s (voiceAtAudio s (s.voice v)) ctr).pos
      else voiceAtAudio s (s.voice v) := by
  have hsame := sameInputs_beforeAudio s
  have hvs := voices_beforeAudio s
  generalize hb : fxControl (controlAll (promoteAll (watchdog (delayIn s)))) = b at hsame hvs
  have ht : (tick s).voices = (audioAll b).voices := by
    rw [tick_voices]
    unfold tickToBuses
    rw [hb, fxAudio_voices, monoFold_voices]
  have hall := audioVoices_voices b b.voices b.buses b.err b.freeCtr
  have hlen := hall.length_eq
  have hvb : v < b.voices.length := by rw [hvs, List.length_map]; exact hv
  have hva : v < (audioVoices b b.voices b.buses b.err b.freeCtr).voices.length := hlen ▸ hvb
  have hget := hall.get hvb hva
  have hbv : b.voices.get ⟨v, hvb⟩ = voiceAtAudio s (s.voice v) := by
    simp [hvs, State.voice, List.getD_eq_getElem?_getD, hv]
  have htv : (tick s).voice v = (audioVoices b b.voices b.buses b.err b.freeCtr).voices.get ⟨v, hva⟩ := by
    unfold State.voice
    rw [ht]
    show (audioVoices b b.voices b.buses b.err b.freeCtr).voices.getD v Voice.reset = _
    simp [List.getD_eq_getElem?_getD, hva]
  rw [hbv, ← htv] at hget
  rcases hget with ⟨ha, he⟩ | ⟨ha, ctr, he⟩
  · exact ⟨0, by rw [he]; simp [ha]⟩
  · exact ⟨ctr, by rw [he, if_pos ha, hsame.renderVoice]⟩

end Sys2Proof.Machine
end

