-- ==== Sys2Proof/Laws/Slots.lean ====
section
/-! SUPPORT. What releasing and silencing do, when `Validate` passes, and that a read position moves inside its view, in the
terms of Safety. -/

namespace Sys2Proof.Machine

open Sys2Proof.Safety

/-! ## Release and Silence -/

theorem Voice.releaseNote_eq (v : Voice) : v.releaseNote = released v := by
  unfold Voice.releaseNote released
  by_cases h : v.desc.lmode = .release <;> simp [h]

theorem Voice.silence_eq (v : Voice) : v.silence = silenced v := by
  unfold Voice.silence silenced
  rw [Voice.releaseNote_eq]

/-! ## `Validate` (R184) -/

theorem Desc.valid_iff (d : Desc) (n : Nat) : d.valid n = true ↔ DescPlayable n d := by
  unfold Desc.valid DescPlayable
  simp only [Bool.and_eq_true, decide_eq_true_eq, Bool.or_eq_true, and_assoc]
  constructor
  · rintro ⟨a, b, c, e⟩
    exact ⟨a, b, c, fun h => e.resolve_left h⟩
  · rintro ⟨a, b, c, e⟩
    refine ⟨a, b, c, ?_⟩
    by_cases h : d.lmode = .off
    · exact .inl h
    · exact .inr (e h)

theorem validate_eq_none_iff (s : State) (r : LaunchRec) : validate s r = none ↔ WavetableOk s r ∧ BlockRangeOk s r := by
  unfold validate WavetableOk BlockRangeOk
  rw [← Desc.valid_iff]
  split_ifs <;> simp_all

theorem validate_wtbad {s : State} {r : LaunchRec} (h : ¬ WavetableOk s r) : validate s r = some .wtbad := by
  unfold WavetableOk at h
  rw [← Desc.valid_iff] at h
  unfold validate
  split_ifs <;> simp_all

theorem validate_cbbad {s : State} {r : LaunchRec} (h : WavetableOk s r) (h' : ¬ BlockRangeOk s r) :
    validate s r = some .cbbad := by
  unfold WavetableOk at h
  unfold BlockRangeOk at h'
  rw [← Desc.valid_iff] at h
  unfold validate
  split_ifs <;> simp_all
  omega

/-! ## The read position stays in its view -/

/-- `Next` moves inside the view (R274). -/
theorem PosInView.next {d : Desc} {p : Pos} {n : Nat} (hd : DescPlayable n d) (hp : PosInView d p)
    (he : (p.neighbour d).ended = false) :
    PosInView d { p with srci := BitVec.ofNat 32 (p.neighbour d).idx, dir := (p.neighbour d).dir } := by
  obtain ⟨h1, h2, h3, h4⟩ := hp
  obtain ⟨-, -, -, d4⟩ := hd
  have hlt := d.len.isLt
  have key : ∀ n : NextPos, n.idx < d.len.toNat → (p.loopen = true → n.idx < d.lstart.toNat + d.llen.toNat) →
      (n.dir = .down → d.lmode = .pingpong ∧ p.loopen = true) →
      PosInView d { p with srci := BitVec.ofNat 32 n.idx, dir := n.dir } := by
    intro n a b c
    have hn : (BitVec.ofNat 32 n.idx).toNat = n.idx := by rw [BitVec.toNat_ofNat]; omega
    refine ⟨by simpa [hn] using a, ?_, c, h4⟩
    intro hl; exact ⟨(h2 hl).1, by simpa [hn] using b hl⟩
  unfold Pos.neighbour nextPos at *
  split at he <;> rename_i g1 g2
  · have := h2 g1; have := d4 this.1
    simp only [g1, g2] at *
    refine key _ ?_ ?_ ?_
    · simp only [nextLoop]; split_ifs with hh <;> (simp only [Desc.loopEnd] at hh; omega)
    · intro _; simp only [nextLoop]; split_ifs with hh <;> (simp only [Desc.loopEnd] at hh; omega)
    · simp_all [nextLoop]
  · have := h2 g1; have := d4 this.1
    simp only [g1, g2] at *
    refine key _ ?_ ?_ ?_
    · simp only [nextLoop]; split_ifs with hh <;> (simp only [Desc.loopEnd] at hh; omega)
    · intro _; simp only [nextLoop]; split_ifs with hh <;> (simp only [Desc.loopEnd] at hh; omega)
    · simp_all [nextLoop]
  · have := h2 g1; have := d4 this.1
    simp only [g1, g2] at *
    refine key _ ?_ ?_ ?_
    · unfold nextPingpong; split <;> split_ifs <;> (simp only [Desc.loopEnd] at *; omega)
    · intro _; unfold nextPingpong; split <;> split_ifs <;> (simp only [Desc.loopEnd] at *; omega)
    · simp_all
  · exact absurd g2 (h2 g1).1
  · refine key _ ?_ ?_ ?_
    · simp only [nextLinear] at *; split_ifs at *; simp_all
    · intro h; simp_all
    · simp only [nextLinear] at *; split_ifs at *; simp_all

/-- `Advance` moves inside the view (R276). -/
theorem PosInView.advance {d : Desc} {n : Nat} (hd : DescPlayable n d) {p : Pos} (step : Nat) (hp : PosInView d p) :
    PosInView d (advance d p step) := by
  unfold Machine.advance
  split
  · exact hp
  · exact stepWhole_induct (P := PosInView d) (fun _ h => h) (fun p hp he => PosInView.next hd hp he) _ _ hp

end Sys2Proof.Machine
end

