-- ==== Sys2Proof/Laws/Errors.lean ====
section
/-! SUPPORT. Which bits of `ERR` the evaluations, the promotion and a whole tick raise (R350 to R358), in the terms of
Safety. -/

namespace Sys2Proof.Machine

open Sys2Proof.Safety

/-! ## Selectors and transforms -/

/-- The two fields of a selector as numbers (R107). -/
theorem Source.ofSelector_eq (cfg : Config) (sel : BitVec 16) :
    Source.ofSelector cfg sel = Source.ofCatIdx cfg (sel.toNat / 4096) (sel.toNat % 4096) := by
  have hlt := sel.isLt
  have hc : (sel.extractLsb' 12 4).toNat = sel.toNat / 4096 := by
    simp [BitVec.extractLsb'_toNat, Nat.shiftRight_eq_div_pow]; omega
  have hi : (sel.extractLsb' 0 12).toNat = sel.toNat % 4096 := by simp [BitVec.extractLsb'_toNat]
  unfold Source.ofSelector
  rw [hc, hi]

/-- The selectors that R107 calls bad. -/
theorem Source.ofSelector_eq_bad_iff (cfg : Config) (sel : BitVec 16) :
    Source.ofSelector cfg sel = .bad ↔ badSelector cfg sel := by
  rw [Source.ofSelector_eq]
  unfold badSelector
  generalize sel.toNat / 4096 = c
  generalize sel.toNat % 4096 = i
  simp only
  unfold Source.ofCatIdx
  split
  case h_19 =>
    simp only [true_iff]
    rename_i a1 a2 a3 a4 a5 a6 a7 a8 a9 a10 a11 a12 a13 a14 a15 a16 a17 a18
    by_contra hb
    have hc : c < 9 := by omega
    interval_cases c
    · exact a1 rfl
    · have : i < 3 := by omega
      interval_cases i
      exacts [a5 rfl rfl, a6 rfl rfl, a7 rfl rfl]
    · exact a2 rfl
    · exact a3 rfl
    · exact a4 rfl
    · have : i < 3 := by omega
      interval_cases i
      exacts [a8 rfl rfl, a9 rfl rfl, a10 rfl rfl]
    · have : i < 2 := by omega
      interval_cases i
      exacts [a11 rfl rfl, a12 rfl rfl]
    · have : i < 2 := by omega
      interval_cases i
      exacts [a13 rfl rfl, a14 rfl rfl]
    · have : i < 4 := by omega
      interval_cases i
      exacts [a15 rfl rfl, a16 rfl rfl, a17 rfl rfl, a18 rfl rfl]
  all_goals (try split) <;> simp <;> omega

/-- The selectors that name no source (R107). -/
theorem Source.ofSelector_eq_none_iff (cfg : Config) (sel : BitVec 16) :
    Source.ofSelector cfg sel = .none ↔ sel.toNat < 4096 := by
  rw [Source.ofSelector_eq, show sel.toNat < 4096 ↔ sel.toNat / 4096 = 0 by omega]
  generalize sel.toNat / 4096 = c
  generalize sel.toNat % 4096 = i
  unfold Source.ofCatIdx
  split
  case h_19 =>
    rename_i h _ _ _ _ _ _ _ _ _ _ _ _ _ _ _ _ _
    simp only [reduceCtorEq, false_iff]
    exact h
  all_goals (try split) <;> simp

/-- Shape 3 is the reserved one (R108). -/
theorem Xform.shape_reserved_iff (b : BitVec 8) : (Xform.ofByte b).shape = .reserved ↔ b.toNat / 4 % 4 = 3 := by
  revert b
  decide

/-- What evaluating a source raises `CBBAD` for (R222). -/
theorem transformBad_iff (cfg : Config) (sel : BitVec 16) (xf : BitVec 8) :
    transformBad cfg sel xf = true ↔ malformedSource cfg sel xf := by
  unfold transformBad malformedSource
  rw [← Source.ofSelector_eq_bad_iff]
  have hn := Source.ofSelector_eq_none_iff cfg sel
  split
  · rename_i h
    have : sel.toNat < 4096 := hn.mp h
    simp [h]
    omega
  · rename_i h
    simp [h]
  · rename_i h1 h2
    have : 4096 ≤ sel.toNat := by
      by_contra hc
      exact h1 (hn.mpr (by omega))
    have h3 : Source.ofSelector cfg sel ≠ .bad := h2
    simp [h3, this, Xform.shape_reserved_iff]

/-- What evaluating an entry raises `CBBAD` for (R222). -/
theorem entryBad_iff (cfg : Config) (e : CbEntry) : entryBad cfg e = true ↔ malformedEntry cfg e := by
  unfold entryBad malformedEntry
  rw [Bool.or_eq_true, transformBad_iff, transformBad_iff]

/-! ## The bits of a tick -/

/-- A bit of a conditional error word. -/
theorem ErrBit.getLsbD_maskIf (b : ErrBit) (c : Bool) (n : Nat) : (b.maskIf c).getLsbD n = (c && decide (n = b.num)) := by
  have hb : b.num < 16 := by cases b <;> decide
  cases c
  · simp [ErrBit.maskIf]
  · by_cases h : n = b.num
    · simp [ErrBit.maskIf, ErrBit.mask, h, hb]
    · simp [ErrBit.maskIf, ErrBit.mask, BitVec.getLsbD_twoPow, h]
      omega

/-- What promoting one slot raises: nothing unless it is FREE_QUEUED, else the bit of the failed check, or `CBBAD` for a
malformed entry (R187). -/
theorem promoteErr_eq (s : State) (v : Voice) : promoteErr s v =
    if slotState v = .freeQueued then
      if WavetableOk s v.pend.launch then
        if BlockRangeOk s v.pend.launch then ErrBit.cbbad.maskIf (initBad s v.pend.launch) else ErrBit.cbbad.mask
      else ErrBit.wtbad.mask
    else 0 := by
  have hq : slotState v = .freeQueued ↔ (!v.act && v.pend.valid) = true := by
    unfold slotState
    cases v.act <;> cases v.pend.valid <;> decide
  unfold promoteErr
  by_cases h : slotState v = .freeQueued
  · rw [if_pos (hq.mp h), if_pos h]
    by_cases h1 : WavetableOk s v.pend.launch
    · rw [if_pos h1]
      by_cases h2 : BlockRangeOk s v.pend.launch
      · rw [(validate_eq_none_iff s _).mpr ⟨h1, h2⟩, if_pos h2]
      · rw [validate_cbbad h1 h2, if_neg h2]
    · rw [validate_wtbad h1, if_neg h1]
  · rw [if_neg fun e => h (hq.mpr e), if_neg h]

/-- `VDONE` after step 5: it was set, or an active slot of the list is inactive now, in its last tick or at its end (R192,
R325). -/
theorem audioVoices_vdone (s : State) (vs : List Voice) (b : Buses) (e : BitVec 16) (ctr : Nat)
    (h : (audioVoices s vs b e ctr).err.getLsbD 8 = true) : e.getLsbD 8 = true ∨
    ∃ (i : Nat) (v w : Voice), vs[i]? = some v ∧ v.act = true ∧ (audioVoices s vs b e ctr).voices[i]? = some w ∧
      w.act = false ∧ (w.flags.final = true ∨ w.pos.ended = true) := by
  induction vs generalizing b e ctr with
  | nil => exact .inl h
  | cons v vs ih =>
    unfold audioVoices at h ⊢
    split at h
    · rename_i ha
      simp only [ha, if_true]
      rcases ih _ _ _ h with h1 | ⟨i, x, w, h1⟩
      · rw [BitVec.getLsbD_or, Bool.or_eq_true, Voice.finishErr, ErrBit.getLsbD_maskIf] at h1
        rcases h1 with h1 | h1
        · exact .inl h1
        · refine .inr ⟨0, v, v.finish (renderVoice s v ctr).pos, rfl, ha, rfl, ?_⟩
          simp only [Bool.and_eq_true, Bool.or_eq_true] at h1
          rw [Voice.finish_eq]
          rcases h1.1 with h1 | h1 <;> simp [h1]
      · exact .inr ⟨i + 1, x, w, h1⟩
    · rename_i ha
      simp only [ha, Bool.false_eq_true, if_false]
      rcases ih _ _ _ h with h1 | ⟨i, x, w, h1⟩
      · exact .inl h1
      · exact .inr ⟨i + 1, x, w, h1⟩

/-- `ERR` after a tick, bit by bit: what it was, `WDOG` by the watchdog, what promotion and control logic raise slot by slot,
`VDONE` and `IDLE`. -/
theorem tick_err (s : State) : ∃ vdone idle : Bool, ∀ n, (tick s).err.getLsbD n =
    (s.err.getLsbD n || (s.watchdogFires && decide (n = 5)) ||
      (s.voices.any fun v => (promoteErr s (if s.watchdogFires then v.allOff else v)).getLsbD n) ||
      (s.voices.any fun v => (controlErr s (voiceAtControl s v)).getLsbD n) ||
      (vdone && decide (n = 8)) || (idle && decide (n = 9))) := by
  have h1 := (sameInputs_delayIn s).trans (sameInputs_watchdog _)
  have h2 := sameInputs_beforeControl s
  have hp : promoteErr (watchdog (delayIn s)) = promoteErr s := funext h1.promoteErr
  have hc : controlErr (promoteAll (watchdog (delayIn s))) = controlErr s := funext h2.controlErr
  have hpv : promoteVoice (watchdog (delayIn s)) = promoteVoice s := funext h1.promoteVoice
  have hf : (delayIn s).watchdogFires = s.watchdogFires := rfl
  have hwv : (watchdog (delayIn s)).voices = s.voices.map fun v => if s.watchdogFires then v.allOff else v := by
    rw [watchdog_voices, hf, delayIn_voices]
    split <;> simp_all
  have he : (watchdog (delayIn s)).err = s.err ||| ErrBit.wdog.maskIf s.watchdogFires := by
    obtain ⟨vs, -, e⟩ := watchdog_eq (delayIn s)
    rw [e]
    rfl
  have hv : (promoteAll (watchdog (delayIn s))).voices = s.voices.map (voiceAtControl s) := by
    show (watchdog (delayIn s)).voices.map (promoteVoice (watchdog (delayIn s))) = _
    rw [hpv, hwv, List.map_map]
    rfl
  have hb : (fxControl (controlAll (promoteAll (watchdog (delayIn s))))).err =
      ((s.err ||| ErrBit.wdog.maskIf s.watchdogFires) |||
        orAll ((s.voices.map fun v => if s.watchdogFires then v.allOff else v).map (promoteErr s))) |||
      orAll ((s.voices.map (voiceAtControl s)).map (controlErr s)) := by
    show ((watchdog (delayIn s)).err ||| orAll ((watchdog (delayIn s)).voices.map (promoteErr (watchdog (delayIn s))))) |||
      orAll ((promoteAll (watchdog (delayIn s))).voices.map (controlErr (promoteAll (watchdog (delayIn s))))) = _
    rw [hp, hc, hv, hwv, he]
  have ht : tick s = tickOutput (fxAudio (monoFold (audioAll
      (fxControl (controlAll (promoteAll (watchdog (delayIn s)))))))) := rfl
  generalize fxControl (controlAll (promoteAll (watchdog (delayIn s)))) = b at hb ht
  obtain ⟨idle, e1, -⟩ := tickOutput_eq (fxAudio (monoFold (audioAll b)))
  obtain ⟨vdone, e2⟩ := audioVoices_err b b.voices b.buses b.err b.freeCtr
  have e3 : (tick s).err = (b.err ||| ErrBit.vdone.maskIf vdone) ||| ErrBit.idle.maskIf idle := by
    rw [ht, e1, ← e2]
    rfl
  refine ⟨vdone, idle, fun n => ?_⟩
  rw [e3, hb]
  simp only [BitVec.getLsbD_or, ErrBit.getLsbD_maskIf, getLsbD_orAll, List.any_map, Function.comp_def, ErrBit.num]
  rfl

end Sys2Proof.Machine
end

