-- ==== Sys2Proof/Laws/PerInstr.lean ====
section
/-! SUPPORT. A statement about every command as syntax, made constructor by constructor: the word `encode` writes carries
the command's own opcode of R101's map in its `OP` field, whatever the operands. -/

namespace Sys2Proof
namespace Laws

/-- The `OP` field of an assembled word is the opcode it was assembled from (R100). -/
theorem opField_assemble (op a : BitVec 8) (b : BitVec 16) (d : BitVec 32) : opField (assemble op a b d) = op := by
  apply BitVec.eq_of_getLsbD_eq
  intro i hi
  simp only [opField, assemble, BitVec.getLsbD_extractLsb', BitVec.getLsbD_append]
  rw [if_neg (by omega), if_neg (by omega), if_neg (by omega)]
  have e : 56 + i - 32 - 16 - 8 = i := by omega
  simp [hi, e]

/-- R101's column "opcode". -/
def tableOpcode : Instr → Nat
  | .nop => 0x00
  | .open_ => 0x01
  | .close => 0x02
  | .mset .. => 0x03
  | .asense .. => 0x04
  | .errclr .. => 0x05
  | .ienset .. => 0x06
  | .rdg .. => 0x07
  | .ccwr .. => 0x10
  | .pbwr .. => 0x11
  | .cpwr .. => 0x12
  | .rpnwr .. => 0x13
  | .nrpnwr .. => 0x14
  | .choff .. => 0x15
  | .chrel .. => 0x16
  | .wptr .. => 0x20
  | .wwr .. => 0x21
  | .wtwr .. => 0x22
  | .cbwr .. => 0x23
  | .lrwr .. => 0x30
  | .vstart .. => 0x31
  | .voff .. => 0x32
  | .vsil .. => 0x33
  | .vcancel .. => 0x34
  | .vglide .. => 0x35
  | .ppwr .. => 0x36
  | .rdv .. => 0x37

/-- The encoded word's `OP` field is the command's opcode. -/
def OpcodeField.Statement (i : Instr) : Prop := (opField (encode i)).toNat = tableOpcode i

theorem OpcodeField.nop : OpcodeField.Statement (.nop) := by
  simp [OpcodeField.Statement, encode, opField_assemble, tableOpcode]

theorem OpcodeField.open_ : OpcodeField.Statement (.open_) := by
  simp [OpcodeField.Statement, encode, opField_assemble, tableOpcode]

theorem OpcodeField.close : OpcodeField.Statement (.close) := by
  simp [OpcodeField.Statement, encode, opField_assemble, tableOpcode]

theorem OpcodeField.mset (r : BitVec 16) (v : BitVec 32) : OpcodeField.Statement (.mset r v) := by
  simp [OpcodeField.Statement, encode, opField_assemble, tableOpcode]

theorem OpcodeField.asense (v : BitVec 32) : OpcodeField.Statement (.asense v) := by
  simp [OpcodeField.Statement, encode, opField_assemble, tableOpcode]

theorem OpcodeField.errclr (m : BitVec 32) : OpcodeField.Statement (.errclr m) := by
  simp [OpcodeField.Statement, encode, opField_assemble, tableOpcode]

theorem OpcodeField.ienset (m : BitVec 32) : OpcodeField.Statement (.ienset m) := by
  simp [OpcodeField.Statement, encode, opField_assemble, tableOpcode]

theorem OpcodeField.rdg (r : BitVec 16) : OpcodeField.Statement (.rdg r) := by
  simp [OpcodeField.Statement, encode, opField_assemble, tableOpcode]

theorem OpcodeField.ccwr (c : BitVec 8) (k : BitVec 16) (v : BitVec 32) : OpcodeField.Statement (.ccwr c k v) := by
  simp [OpcodeField.Statement, encode, opField_assemble, tableOpcode]

theorem OpcodeField.pbwr (c : BitVec 8) (v : BitVec 32) : OpcodeField.Statement (.pbwr c v) := by
  simp [OpcodeField.Statement, encode, opField_assemble, tableOpcode]

theorem OpcodeField.cpwr (c : BitVec 8) (v : BitVec 32) : OpcodeField.Statement (.cpwr c v) := by
  simp [OpcodeField.Statement, encode, opField_assemble, tableOpcode]

theorem OpcodeField.rpnwr (c : BitVec 8) (s : BitVec 16) (v : BitVec 32) : OpcodeField.Statement (.rpnwr c s v) := by
  simp [OpcodeField.Statement, encode, opField_assemble, tableOpcode]

theorem OpcodeField.nrpnwr (c : BitVec 8) (s : BitVec 16) (v : BitVec 32) : OpcodeField.Statement (.nrpnwr c s v) := by
  simp [OpcodeField.Statement, encode, opField_assemble, tableOpcode]

theorem OpcodeField.choff (c : BitVec 8) (m : BitVec 32) : OpcodeField.Statement (.choff c m) := by
  simp [OpcodeField.Statement, encode, opField_assemble, tableOpcode]

theorem OpcodeField.chrel (c : BitVec 8) (m : BitVec 32) : OpcodeField.Statement (.chrel c m) := by
  simp [OpcodeField.Statement, encode, opField_assemble, tableOpcode]

theorem OpcodeField.wptr (a : BitVec 32) : OpcodeField.Statement (.wptr a) := by
  simp [OpcodeField.Statement, encode, opField_assemble, tableOpcode]

theorem OpcodeField.wwr (s : BitVec 32) : OpcodeField.Statement (.wwr s) := by
  simp [OpcodeField.Statement, encode, opField_assemble, tableOpcode]

theorem OpcodeField.wtwr (f : BitVec 8) (n : BitVec 16) (v : BitVec 32) : OpcodeField.Statement (.wtwr f n v) := by
  simp [OpcodeField.Statement, encode, opField_assemble, tableOpcode]

theorem OpcodeField.cbwr (f : BitVec 8) (n : BitVec 16) (v : BitVec 32) : OpcodeField.Statement (.cbwr f n v) := by
  simp [OpcodeField.Statement, encode, opField_assemble, tableOpcode]

theorem OpcodeField.lrwr (f : BitVec 8) (v : BitVec 32) : OpcodeField.Statement (.lrwr f v) := by
  simp [OpcodeField.Statement, encode, opField_assemble, tableOpcode]

theorem OpcodeField.vstart (s : BitVec 8) : OpcodeField.Statement (.vstart s) := by
  simp [OpcodeField.Statement, encode, opField_assemble, tableOpcode]

theorem OpcodeField.voff (s : BitVec 8) (m : BitVec 32) : OpcodeField.Statement (.voff s m) := by
  simp [OpcodeField.Statement, encode, opField_assemble, tableOpcode]

theorem OpcodeField.vsil (s : BitVec 8) : OpcodeField.Statement (.vsil s) := by
  simp [OpcodeField.Statement, encode, opField_assemble, tableOpcode]

theorem OpcodeField.vcancel (s : BitVec 8) : OpcodeField.Statement (.vcancel s) := by
  simp [OpcodeField.Statement, encode, opField_assemble, tableOpcode]

theorem OpcodeField.vglide (s : BitVec 8) : OpcodeField.Statement (.vglide s) := by
  simp [OpcodeField.Statement, encode, opField_assemble, tableOpcode]

theorem OpcodeField.ppwr (s : BitVec 8) (v : BitVec 32) : OpcodeField.Statement (.ppwr s v) := by
  simp [OpcodeField.Statement, encode, opField_assemble, tableOpcode]

theorem OpcodeField.rdv (s : BitVec 8) (f : BitVec 16) : OpcodeField.Statement (.rdv s f) := by
  simp [OpcodeField.Statement, encode, opField_assemble, tableOpcode]

end Laws
end Sys2Proof
end

