-- ==== Sys2Proof/Laws/Resampler.lean ====
section
/-! SUPPORT. Where k whole samples take a read position, in each of its three ways of moving (R274, R276). -/

namespace Sys2Proof.Machine

open Sys2Proof.Safety

/-! ## The three ways of moving (R274) -/

theorem Pos.neighbour_linear {d : Desc} {p : Pos} (h : p.loopen = false ∨ d.lmode = .off) :
    p.neighbour d = nextLinear d p.srci.toNat p.dir := by
  unfold Pos.neighbour nextPos
  rcases h with h | h
  · simp [h]
  · rw [h]
    cases p.loopen <;> rfl

theorem Pos.neighbour_loop {d : Desc} {p : Pos} (hp : p.loopen = true) (h : d.lmode = .forward ∨ d.lmode = .release) :
    p.neighbour d = nextLoop d p.srci.toNat p.dir := by
  unfold Pos.neighbour nextPos
  rcases h with h | h <;> rw [hp, h]

theorem Pos.neighbour_pingpong {d : Desc} {p : Pos} (hp : p.loopen = true) (h : d.lmode = .pingpong) :
    p.neighbour d = nextPingpong d p.srci.toNat p.dir := by
  unfold Pos.neighbour nextPos
  rw [hp, h]

/-- Whole samples leave the fraction and the loop flag alone (R276). -/
theorem stepWhole_frac (d : Desc) (k : Nat) (p : Pos) :
    (stepWhole d k p).frac = p.frac ∧ (stepWhole d k p).loopen = p.loopen := by
  induction k generalizing p with
  | zero => exact ⟨rfl, rfl⟩
  | succ k ih =>
    unfold stepWhole
    split
    · exact ⟨rfl, rfl⟩
    · exact ih _

/-! ## k whole samples -/

/-- With no loop in force: onward to the last sample and no further (R280). -/
theorem stepWhole_linear {d : Desc} (hl : 1 ≤ d.len.toNat) (k : Nat) {p : Pos} (h : p.loopen = false ∨ d.lmode = .off)
    (he : p.ended = false) (hi : p.srci.toNat < d.len.toNat) :
    (stepWhole d k p).dir = p.dir ∧ (stepWhole d k p).srci.toNat = min (p.srci.toNat + k) (d.len.toNat - 1) ∧
    ((stepWhole d k p).ended = true ↔ d.len.toNat ≤ p.srci.toNat + k) := by
  induction k generalizing p with
  | zero => simp [stepWhole, he]; omega
  | succ k ih =>
    unfold stepWhole
    rw [Pos.neighbour_linear h]
    unfold nextLinear
    split
    · simp; omega
    · have hlen := d.len.isLt
      have e : (BitVec.ofNat 32 (p.srci.toNat + 1)).toNat = p.srci.toNat + 1 := by simp; omega
      obtain ⟨a, g, f⟩ := ih (p := { p with srci := BitVec.ofNat 32 (p.srci.toNat + 1), dir := p.dir }) h he
        (by simp only [e]; omega)
      simp only [e] at g f
      simp only [Bool.false_eq_true, if_false]
      refine ⟨a, ?_, ?_⟩
      · rw [g]; congr 1; omega
      · rw [f]; omega

/-- In a loop: onward to its end, then round it (R274). -/
theorem stepWhole_loop {d : Desc} (h0 : 1 ≤ d.llen.toNat) (h1 : d.lstart.toNat + d.llen.toNat ≤ d.len.toNat) (k : Nat)
    {p : Pos} (hp : p.loopen = true) (h : d.lmode = .forward ∨ d.lmode = .release) (he : p.ended = false)
    (hi : p.srci.toNat < d.lstart.toNat + d.llen.toNat) :
    (stepWhole d k p).dir = p.dir ∧ (stepWhole d k p).ended = false ∧
    (stepWhole d k p).srci.toNat =
      if p.srci.toNat + k < d.lstart.toNat + d.llen.toNat then p.srci.toNat + k
      else d.lstart.toNat + (p.srci.toNat + k - d.lstart.toNat) % d.llen.toNat := by
  induction k generalizing p with
  | zero => simp [stepWhole, he]; omega
  | succ k ih =>
    unfold stepWhole
    rw [Pos.neighbour_loop hp h]
    unfold nextLoop Desc.loopEnd
    simp only [Bool.false_eq_true, if_false]
    have hlen := d.len.isLt
    split
    · rename_i hc
      have e : (BitVec.ofNat 32 (p.srci.toNat + 1 - d.llen.toNat)).toNat = d.lstart.toNat := by simp; omega
      obtain ⟨a, c, f⟩ := ih (p := { p with srci := BitVec.ofNat 32 (p.srci.toNat + 1 - d.llen.toNat), dir := p.dir }) hp he
        (by simp only [e]; omega)
      simp only [e] at f
      refine ⟨a, c, ?_⟩
      rw [f, if_neg (by omega : ¬ p.srci.toNat + (k + 1) < _),
        show p.srci.toNat + (k + 1) - d.lstart.toNat = k + d.llen.toNat by omega, Nat.add_mod_right]
      split
      · rw [Nat.mod_eq_of_lt (by omega)]
      · congr 2; omega
    · have e : (BitVec.ofNat 32 (p.srci.toNat + 1)).toNat = p.srci.toNat + 1 := by simp; omega
      obtain ⟨a, c, f⟩ := ih (p := { p with srci := BitVec.ofNat 32 (p.srci.toNat + 1), dir := p.dir }) hp he
        (by simp only [e]; omega)
      simp only [e] at f
      refine ⟨a, c, ?_⟩
      rw [f, show p.srci.toNat + 1 + k = p.srci.toNat + (k + 1) by omega]

/-! ## To and fro -/

/-- A ping-pong position by its phase u: before the loop the phase is the index; from the loop's start on the position goes
up through the loop and down again, 2·`LLEN` phases a round, each end read twice (R274). -/
def PhaseAt (d : Desc) (u i : Nat) (dir : Dir) : Prop :=
  (u < d.lstart.toNat → i = u ∧ dir = .up) ∧
  (d.lstart.toNat ≤ u → (u - d.lstart.toNat) % (2 * d.llen.toNat) < d.llen.toNat →
    i = d.lstart.toNat + (u - d.lstart.toNat) % (2 * d.llen.toNat) ∧ dir = .up) ∧
  (d.lstart.toNat ≤ u → d.llen.toNat ≤ (u - d.lstart.toNat) % (2 * d.llen.toNat) →
    i = d.lstart.toNat + (2 * d.llen.toNat - 1 - (u - d.lstart.toNat) % (2 * d.llen.toNat)) ∧ dir = .down)

/-- The remainder of a successor. -/
theorem succ_mod {a n : Nat} (h : 0 < n) : (a + 1) % n = if a % n + 1 = n then 0 else a % n + 1 := by
  have := Nat.mod_lt a h
  rw [Nat.add_mod]
  split
  · rename_i h'
    by_cases h1 : n = 1
    · subst h1; omega
    · rw [Nat.mod_eq_of_lt (by omega : 1 < n), h', Nat.mod_self]
  · rw [Nat.mod_eq_of_lt (by omega : 1 < n), Nat.mod_eq_of_lt (by omega)]

/-- One ping-pong step is one phase on, and stays in the view. -/
theorem PhaseAt.next {d : Desc} {u i : Nat} {dir : Dir} (h0 : 1 ≤ d.llen.toNat)
    (h1 : d.lstart.toNat + d.llen.toNat ≤ d.len.toNat) (h : PhaseAt d u i dir) :
    (nextPingpong d i dir).ended = false ∧ (nextPingpong d i dir).idx < 2 ^ 32 ∧
    PhaseAt d (u + 1) (nextPingpong d i dir).idx (nextPingpong d i dir).dir := by
  obtain ⟨a, b, c⟩ := h
  have hlen := d.len.isLt
  have hm := Nat.mod_lt (u - d.lstart.toNat) (by omega : 0 < 2 * d.llen.toNat)
  unfold PhaseAt
  by_cases hu : u + 1 ≤ d.lstart.toNat
  · obtain ⟨rfl, rfl⟩ := a (by omega)
    have h0' : i + 1 - d.lstart.toNat = 0 := by omega
    unfold nextPingpong Desc.loopEnd
    rw [h0', Nat.zero_mod, if_neg (by omega)]
    exact ⟨rfl, by simp only; omega, fun _ => ⟨rfl, rfl⟩, fun _ _ => ⟨by simp only; omega, rfl⟩, fun _ _ => by omega⟩
  · rw [show u + 1 - d.lstart.toNat = u - d.lstart.toNat + 1 by omega, succ_mod (by omega)]
    by_cases hlt : (u - d.lstart.toNat) % (2 * d.llen.toNat) < d.llen.toNat
    · obtain ⟨e, rfl⟩ := b (by omega) hlt
      unfold nextPingpong Desc.loopEnd
      simp only
      rw [if_neg (by omega : ¬ (u - d.lstart.toNat) % (2 * d.llen.toNat) + 1 = _)]
      split
      · exact ⟨rfl, by simp only; omega, fun _ => by omega, fun _ _ => by omega, fun _ _ => ⟨by simp only; omega, rfl⟩⟩
      · exact ⟨rfl, by simp only; omega, fun _ => by omega, fun _ _ => ⟨by simp only; omega, rfl⟩, fun _ _ => by omega⟩
    · obtain ⟨e, rfl⟩ := c (by omega) (by omega)
      unfold nextPingpong
      simp only
      by_cases hz : (u - d.lstart.toNat) % (2 * d.llen.toNat) + 1 = 2 * d.llen.toNat
      · rw [if_pos hz, if_pos (by omega)]
        exact ⟨rfl, by simp only; omega, fun _ => by omega, fun _ _ => ⟨by simp only; omega, rfl⟩, fun _ _ => by omega⟩
      · rw [if_neg hz, if_neg (by omega)]
        exact ⟨rfl, by simp only; omega, fun _ => by omega, fun _ _ => by omega, fun _ _ => ⟨by simp only; omega, rfl⟩⟩

/-- To and fro: k whole samples are k phases on (R274). -/
theorem stepWhole_pingpong {d : Desc} (h0 : 1 ≤ d.llen.toNat) (h1 : d.lstart.toNat + d.llen.toNat ≤ d.len.toNat)
    (hm : d.lmode = .pingpong) (k : Nat) {u : Nat} {p : Pos} (hp : p.loopen = true) (he : p.ended = false)
    (h : PhaseAt d u p.srci.toNat p.dir) :
    (stepWhole d k p).ended = false ∧ PhaseAt d (u + k) (stepWhole d k p).srci.toNat (stepWhole d k p).dir := by
  induction k generalizing u p with
  | zero => exact ⟨he, h⟩
  | succ k ih =>
    unfold stepWhole
    rw [Pos.neighbour_pingpong hp hm]
    obtain ⟨k1, k2, k3⟩ := h.next h0 h1
    have e : (BitVec.ofNat 32 (nextPingpong d p.srci.toNat p.dir).idx).toNat = (nextPingpong d p.srci.toNat p.dir).idx := by
      rw [BitVec.toNat_ofNat, Nat.mod_eq_of_lt k2]
    rw [k1, show u + (k + 1) = u + 1 + k by omega]
    exact ih (p := { p with
      srci := BitVec.ofNat 32 (nextPingpong d p.srci.toNat p.dir).idx
      dir := (nextPingpong d p.srci.toNat p.dir).dir }) hp he (by simp only [e]; exact k3)

end Sys2Proof.Machine
end

