-- ==== Sys2Proof/Tests/Slice0.lean ====
section
/-! SUPPORT. The model's own tests: decoding, the checks of the configuration, one step of each command, values of the pure
functions, and for every obligation with hypotheses a witness that meets them. Expected values come from the spec: R113's
table and 95_test_vectors.md, whose section is named beside each. -/

namespace Sys2Proof.Tests

open Sys2Proof.Machine Sys2Proof.Safety

-- One theorem at a time: kernel evaluations in parallel would each hold a thread and its stack.
set_option Elab.async false

/-! ## Decoding (95_test_vectors.md section 2) -/

theorem test_decode_nop : decode 0x0000000000000000 = .ok .nop := by decide
theorem test_decode_open : decode 0x0100000000000000 = .ok .open_ := by decide
theorem test_decode_close : decode 0x0200000000000000 = .ok .close := by decide
theorem test_decode_mset : decode 0x0300000100008000 = .ok (.mset 1 0x8000) := by decide
theorem test_decode_asense : decode 0x0400000000000001 = .ok (.asense 1) := by decide
theorem test_decode_errclr : decode 0x050000000000033F = .ok (.errclr 0x033F) := by decide
theorem test_decode_ienset : decode 0x0600000000000101 = .ok (.ienset 0x0101) := by decide
theorem test_decode_rdg : decode 0x0700000C00000000 = .ok (.rdg 12) := by decide
theorem test_decode_ccwr : decode 0x100F007F000000FF = .ok (.ccwr 15 127 0xFF) := by decide
theorem test_decode_pbwr : decode 0x1100000000003FFF = .ok (.pbwr 0 16383) := by decide
theorem test_decode_cpwr : decode 0x1203000000000040 = .ok (.cpwr 3 64) := by decide
theorem test_decode_rpnwr : decode 0x1300000000000100 = .ok (.rpnwr 0 0 256) := by decide
theorem test_decode_nrpnwr : decode 0x1402000F00003FFF = .ok (.nrpnwr 2 15 0x3FFF) := by decide
theorem test_decode_choff : decode 0x1509000000000001 = .ok (.choff 9 1) := by decide
theorem test_decode_chrel : decode 0x1600000000000003 = .ok (.chrel 0 3) := by decide
theorem test_decode_wptr : decode 0x200000000000003F = .ok (.wptr 63) := by decide
theorem test_decode_wwr : decode 0x21000000FFFFE0C0 = .ok (.wwr (-8000)) := by decide
theorem test_decode_wtwr : decode 0x220500010000AC44 = .ok (.wtwr 5 1 44100) := by decide
theorem test_decode_cbwr : decode 0x2302000FFC400000 = .ok (.cbwr 2 15 0xFC400000) := by decide
theorem test_decode_lrwr : decode 0x300A000000140000 = .ok (.lrwr 10 1310720) := by decide
theorem test_decode_vstart : decode 0x3103000000000000 = .ok (.vstart 3) := by decide
theorem test_decode_voff : decode 0x3202000000000001 = .ok (.voff 2 1) := by decide
theorem test_decode_vsil : decode 0x3305000000000000 = .ok (.vsil 5) := by decide
theorem test_decode_vcancel : decode 0x3401000000000000 = .ok (.vcancel 1) := by decide
theorem test_decode_vglide : decode 0x3500000000000000 = .ok (.vglide 0) := by decide
theorem test_decode_ppwr : decode 0x360100000000005A = .ok (.ppwr 1 90) := by decide
theorem test_decode_rdv : decode 0x3703005100000000 = .ok (.rdv 3 0x51) := by decide

/-- An undefined opcode and reserved fields (section 2). -/
theorem test_decode_undefined_and_reserved :
    decode 0x0800000000000000 = .error (.undefinedOpcode 8) ∧ decode 0xFF123456789ABCDE = .error (.undefinedOpcode 255) ∧
    decode 0x00FFFFFFFFFFFFFF = .ok .nop ∧ decode 0x0155AA5500000001 = .ok .open_ := by decide

theorem test_encode_words :
    encode (.mset 3 0xFFFFFFFF) = 0x03000003FFFFFFFF ∧ encode (.ccwr 1 7 100) = 0x1001000700000064 ∧
    encode (.wtwr 6 0 (-3276800)) = 0x22060000FFCE0000 ∧ encode (.lrwr 9 (-13107200)) = 0x30090000FF380000 := by decide

theorem test_decode_table_word :
    decodeTableWord 64 0x3703005100000000 = some (.rdv 3 0x51) ∧ decodeTableWord 64 0x0800000000000000 = none := by decide

/-! ## The checks of a configuration (R7) -/

theorem test_wf_accepts : Config.ref.wf = true ∧ Config.tcfg.wf = true := by decide
theorem test_wf_refuses_nv : { Config.tcfg with nv := 257 }.wf = false ∧ { Config.tcfg with nv := 0 }.nvOk = false := by decide
theorem test_wf_refuses_chunk : { Config.tcfg with chunk := 0 }.chunkOk = false := by decide
theorem test_wf_refuses_fs : { Config.tcfg with fs := 1177 }.wf = false ∧ { Config.tcfg with fs := 0 }.fsOk = false := by decide
theorem test_wf_refuses_wave_size : { Config.tcfg with waveSize := 4294967297 }.wf = false := by decide
theorem test_wf_refuses_nwt : { Config.tcfg with nwt := 65537 }.wf = false := by decide
theorem test_wf_refuses_ncb : { Config.tcfg with ncb := 0 }.wf = false := by decide
theorem test_wf_refuses_n_rpn : { Config.tcfg with nRpn := 4097 }.wf = false := by decide
theorem test_wf_refuses_n_nrpn : { Config.tcfg with nNrpn := 0 }.wf = false := by decide
theorem test_wf_refuses_shut_step : { Config.tcfg with shutStep := 32769 }.wf = false := by decide

/-! ## Small states -/

/-- The state a step leaves (R385: every step leaves one). -/
def stepped (s : State) : State :=
  match step s with
  | .next t => t
  | .fault _ => s
  | .refused _ => s

/-- The state after HOST delivers that word. -/
def sent (w : CmdWord) (s : State) : State := stepped { s with sched := .cmd w :: s.sched }

/-- The test configuration TCFG after reset (R16, R51). -/
def closed : State := State.init Config.tcfg

/-- The same, open. -/
def opened : State := { closed with run := true }

/-- The samples and descriptors of programs P1 and P2, and P1's launch record (95_test_vectors.md section 11). -/
def tabled : State :=
  { opened with
    wave := [(0, 1000), (1, 2000), (2, -3000), (3, -4000), (4, 5000), (5, 6000), (8, 16000), (9, -8000)]
    wt := [(0, 0), (1, 6), (2, 1), (3, 4), (4, 1), (5, 1176), (6, 0), (7, 8), (8, 1), (9, 0), (10, 1), (11, 1), (12, 1176),
      (13, 0)]
    lr := { LaunchRec.zero with note := 60, vel := 100, vid := 1 } }

/-- Slot 0 plays P1's note, slot 1 a steady 16000 on channel 1. -/
def playing : State :=
  { tabled with voices := [initVoice tabled tabled.lr, initVoice tabled { tabled.lr with chan := 1, wt := 1 },
      Voice.reset, Voice.reset] }

/-- The same with voice 0 alone. -/
def solo : State := { playing with voices := playing.voices.set 1 Voice.reset }

/-- Slot 0 is silenced and holds a pending record for channel 5; slot 2 is free and queues P1's note. -/
def stolen : State :=
  { playing with voices := [(playing.voice 0).takeover { tabled.lr with chan := 5 }, playing.voice 1,
      { Voice.reset with pend := { valid := true, launch := tabled.lr } }, Voice.reset] }

/-- A machine whose slot 0 queues that record, with that record in `LR` too. -/
def queueing (r : LaunchRec) : State :=
  { playing with
    lr := r
    voices := [{ Voice.reset with pend := { valid := true, launch := r } }, playing.voice 1, Voice.reset, Voice.reset] }

/-- A record with a bad wavetable number, and one with a bad block range (section 6.5). -/
def badWt : LaunchRec := { tabled.lr with wt := 4 }
def badCb : LaunchRec := { tabled.lr with cbbase := 17 }

/-- Two blocks into `FILTER_Q`: `CC(7)` and a constant, both scale 32768 (section 7). -/
def blocks : State :=
  { tabled with
    cb := [(0, 0x00002007), (1, 0x00170000), (2, 32768), (3, 0), (4, 0x00170000), (5, 32768)]
    lr := { tabled.lr with cbcnt := 2 } }

/-- The next transition is a `Refill`. -/
def due (s : State) : State := { s with sched := [.refill] }

/-- The left samples of the output buffer, frame by frame. -/
def lefts (s : State) : List Int :=
  (List.range s.cfg.chunk).map fun j => (s.outbuf.getD (4 * j + 1) 0 ++ s.outbuf.getD (4 * j) 0).toInt

/-- The right samples. -/
def rights (s : State) : List Int :=
  (List.range s.cfg.chunk).map fun j => (s.outbuf.getD (4 * j + 3) 0 ++ s.outbuf.getD (4 * j + 2) 0).toInt

/-! ## One step of each command (95_test_vectors.md sections 4 to 6, and the programs) -/

/-- Section 2: reserved fields of a `NOP` are ignored and nothing changes. -/
theorem test_nop : (sent 0x00FFFFFFFFFFFFFF playing).cmdseen = false ∧ (sent 0x00FFFFFFFFFFFFFF closed).err = 0 := by
  decide +kernel

/-- Section 4.2: from reset with one error, `OPEN` gives `STATUS` 0x301. -/
theorem test_open : (sent 0x0100000000000000 closed).status = 0x301 := by decide +kernel

/-- Section 4.6: `CLOSE` clears `RUN`, `ASEN`, `TICKCNT` and the slots, keeps `WPTR`, `ERR`, `IEN`. -/
theorem test_close : ∃ t, t = sent 0x0200000000000000 { playing with
      wptr := 6, err := 2, ien := 0x100, tickcnt := 8, mvol := 1000, asen := true } ∧
    t.status = 0x200 ∧ t.tickcnt = 0 ∧ t.busyCount = 0 ∧ t.mvol = 0x8000 ∧ t.wptr = 6 ∧ t.err = 2 ∧ t.ien = 0x100 ∧
    (t.voice 0).lfo0.word = 0x4000 ∧ t.lr.vid = 1 ∧ t.waveRead 5 = 6000 :=
  ⟨_, rfl, by decide +kernel⟩

/-- Section 4.3. -/
theorem test_mset : (sent 0x0300000000004000 closed).mvol = 16384 ∧ (sent 0x03000001FFFFFFFF closed).mbal = 32768 ∧
    (sent 0x0300000200008001 closed).mfine = 32768 ∧ (sent 0x0300000300000000 closed).mcoarse = 0 := by decide +kernel

/-- Section 4.2: `MSET 4, 0` raises `RANGE` while closed. -/
theorem test_mset_range : (sent 0x0300000400000000 closed).err = 2 ∧ (sent 0x0300000400000000 closed).status = 0x300 := by
  decide +kernel

/-- Section 4.4. -/
theorem test_asense : (sent 0x0400000000000003 opened).status = 0x305 ∧
    (sent 0x0400000000000002 { opened with asen := true }).status = 0x301 := by decide +kernel

/-- Section 4.5. -/
theorem test_errclr : (sent 0x0500000000000100 { opened with err := 0x102 }).err = 2 ∧
    (sent 0x0500000000000002 { opened with err := 2, ien := 0x3F }).irq = false := by decide +kernel

/-- Section 4.5. -/
theorem test_ienset : (sent 0x06000000FFFFFFFF opened).ien = 0x33F ∧
    (sent 0x060000000000003F { opened with err := 2 }).irq = true := by decide +kernel

/-- Section 4.1: the reset readback. -/
theorem test_rdg : ((List.range 14).map fun r => (stepped (closed.schedule (.cmd (encode (.rdg (BitVec.ofNat 16 r)))))).rsp) =
    [0x4D440007, 0x200, 0, 0, 0, 0x8000, 0x4000, 0x4000, 0x4000, 0, 4, 0, 0, 0] := by decide +kernel

/-- Section 4.1: `RDG 13`. -/
theorem test_rdg_range : (sent 0x0700000D00000000 closed).err = 2 ∧ (sent 0x0700000D00000000 closed).status = 0x200 := by
  decide +kernel

/-- Section 5.1. -/
theorem test_ccwr : ((sent 0x1001000700000064 opened).chan 1).cc[7] = 100 ∧
    ((sent 0x10010007000001FF opened).chan 1).cc[7] = 127 ∧ ((sent 0x100F007F000000FF opened).chan 15).cc[127] = 127 := by
  decide +kernel

/-- Sections 4.2 and 5.2: out of range, open and closed. -/
theorem test_ccwr_range : (sent 0x1010000700000000 opened).err = 2 ∧ (sent 0x1000008000000000 opened).err = 2 ∧
    (sent 0x1010000700000000 closed).err = 0 ∧ (sent 0x1010000700000000 closed).status = 0x300 := by decide +kernel

/-- Sections 5.1, 5.2. -/
theorem test_pbwr : ((sent 0x1100000000003FFF opened).chan 0).pb = 16383 ∧ ((sent 0x1100000000004001 opened).chan 0).pb = 1 ∧
    (sent 0x1110000000000000 opened).err = 2 := by decide +kernel

/-- Sections 5.1, 5.2. -/
theorem test_cpwr : ((sent 0x1203000000000040 opened).chan 3).cp = 64 ∧ (sent 0x1210000000000000 opened).err = 2 := by
  decide +kernel

/-- Sections 5.1, 5.2. -/
theorem test_rpnwr : ((sent 0x1300000000000100 opened).chan 0).rpn.getD 0 0 = 256 ∧
    (sent 0x1300000800000000 opened).err = 2 := by decide +kernel

/-- Sections 5.1, 5.2. -/
theorem test_nrpnwr : ((sent 0x1402000F00003FFF opened).chan 2).nrpn.getD 15 0 = 16383 ∧
    (sent 0x1400001000000000 opened).err = 2 := by decide +kernel

/-- Section 5.4: mode 0 releases without silencing, mode 1 silences. -/
theorem test_choff : ((sent 0x1501000000000000 playing).voice 1).flagsWord = 0x643C1201 ∧
    ((sent 0x1501000000000001 playing).voice 1).flagsWord = 0x643C1241 ∧
    ((sent 0x1501000000000001 playing).voice 0).flagsWord = 0x643C0205 := by decide +kernel

/-- Section 5.4: `CHOFF 5, 0` drops the pending record and leaves the sounding voice fading; slot 2's record stays. -/
theorem test_choff_pending : ((sent 0x1505000000000000 stolen).voice 0).flagsWord = 0x643C0241 ∧
    ((sent 0x1505000000000000 stolen).voice 2).pend.valid = true := by decide +kernel

/-- Section 5.3, steps 1 and 2: a voice marked both ways stays on until both marks are gone. -/
theorem test_chrel : (((sent 0x1600000000000001 (sent 0x3200000000000001 playing)).voice 0).flagsWord = 0x643C0201) ∧
    (((sent 0x1600000000000001 (sent 0x3200000000000002 (sent 0x3200000000000001 playing))).voice 0).flagsWord =
      0x643C0215) := by decide +kernel

/-- Section 6.1. -/
theorem test_wptr : (sent 0x200000000000003F closed).wptr = 63 ∧ (sent 0x2000000000000040 closed).err = 2 ∧
    (sent 0x2000000000000040 closed).wptr = 0 := by decide +kernel

/-- Section 6.1: the last element, then one past it. -/
theorem test_wwr : (sent 0x2100000000000005 { closed with wptr := 63 }).waveRead 63 = 5 ∧
    (sent 0x2100000000000005 { closed with wptr := 63 }).wptr = 64 ∧
    (sent 0x2100000000000006 { closed with wptr := 64 }).err = 2 := by decide +kernel

/-- A WAVE memory of 2^32 elements whose last but one the pointer has passed. -/
def brimful : State := { closed with cfg := { Config.tcfg with waveSize := 4294967296 }, wptr := 4294967295 }

/-- R161 with WAVE_SIZE = 2^32: the last element is written and the pointer reaches WAVE_SIZE; the next `WWR` raises `RANGE`
and writes nothing. -/
theorem test_wwr_reaches_the_end : brimful.cfg.wf = true ∧ (sent 0x2100000000000005 brimful).waveRead 4294967295 = 5 ∧
    (sent 0x2100000000000005 brimful).wptr = 4294967296 ∧ (sent 0x2100000000000005 brimful).err = 0 ∧
    (sent 0x2100000000000006 (sent 0x2100000000000005 brimful)).err = 2 ∧
    (sent 0x2100000000000006 (sent 0x2100000000000005 brimful)).wave = [(4294967295, 5)] := by decide +kernel

/-- Section 6.1: the sample is bits 15:0, signed. -/
theorem test_wwr_truncates : ((sent 0x2100000000018001 closed).waveRead 0).toInt = -32767 := by decide +kernel

/-- Section 6.2. -/
theorem test_wtwr : ((sent 0x2204000000000007 closed).descAt 0).lmode = .pingpong ∧
    (sent 0x2207000000000000 closed).err = 2 ∧ (sent 0x2200000400000000 closed).err = 2 := by decide +kernel

/-- Sections 2 and 6.2. -/
theorem test_cbwr : (sent 0x2302000FFC400000 closed).cbRead 15 2 = 0xFC400000 ∧
    (sent 0x2303000000000000 closed).err = 2 ∧ (sent 0x2300001000000000 closed).err = 2 := by decide +kernel

/-- Section 6.3. -/
theorem test_lrwr : (sent 0x300000000000001F closed).lr.chan = 15 ∧ (sent 0x30010000000000C8 closed).lr.note = 72 ∧
    (sent 0x3004000000012345 closed).lr.wt = 9029 ∧ (sent 0x3008000000000003 closed).lr.reltrig = true := by decide +kernel

/-- Section 6.3. -/
theorem test_lrwr_range : (sent 0x300B000000000000 closed).err = 2 := by decide +kernel

/-- Program P1: the readbacks after `VSTART 0`. -/
theorem test_vstart : ((sent 0x3100000000000000 tabled).voice 0).flagsWord = 0x643C0205 ∧
    ((sent 0x3100000000000000 tabled).voice 0).fieldWord 8 = 0x80000000 ∧ (sent 0x3100000000000000 tabled).err = 0 := by
  decide +kernel

/-- Section 6.5 and the check order: `WTBAD`, `CBBAD`, `VBUSY`. -/
theorem test_vstart_checks :
    (sent 0x3103000000000000 { tabled with lr := { tabled.lr with wt := 4 } }).err = 8 ∧
    (sent 0x3103000000000000 { tabled with lr := { tabled.lr with cbbase := 10, cbcnt := 7 } }).err = 0x10 ∧
    (sent 0x3103000000000000 { tabled with lr := { tabled.lr with cbbase := 17 } }).err = 0x10 ∧
    (sent 0x3100000000000000 { stolen with lr := { tabled.lr with wt := 4 } }).err = 4 ∧
    (sent 0x3104000000000000 tabled).err = 2 := by decide +kernel

/-- Section 5.3: marks, the release that clears them, and mode 3. -/
theorem test_voff : ((sent 0x3200000000000001 playing).voice 0).flagsWord = 0x643C020D ∧
    ((sent 0x3200000000000000 (sent 0x3200000000000001 playing)).voice 0).flagsWord = 0x643C0201 ∧
    (sent 0x3200000000000003 playing).err = 2 := by decide +kernel

/-- Section 6.6: `VSIL` releases and silences; on a free slot it does nothing. -/
theorem test_vsil : ((sent 0x3300000000000000 playing).voice 0).flagsWord = 0x643C0241 ∧
    (sent 0x3303000000000000 playing).voice 3 = Voice.reset ∧ (sent 0x3304000000000000 playing).err = 2 := by decide +kernel

/-- Program P3, variant b: the pending record goes, the fading voice stays. -/
theorem test_vcancel : ((sent 0x3400000000000000 stolen).voice 0).flagsWord = 0x643C0241 ∧
    slotState ((sent 0x3402000000000000 stolen).voice 2) = .free := by decide +kernel

/-- R194: note, offset and rate from `LR`; the derived bit `PORTA` follows the offset. -/
theorem test_vglide :
    ((sent 0x3500000000000000 { playing with lr := { tabled.lr with note := 72, gofs := -13107200 } }).voice 0).flagsWord =
      0x64480225 := by decide +kernel

/-- R195, section 6.4. -/
theorem test_ppwr : ((sent 0x360100000000005A playing).voice 1).pp = 90 ∧
    (sent 0x360300000000005A playing).voice 3 = Voice.reset ∧ (sent 0x3604000000000000 playing).err = 2 := by decide +kernel

/-- Section 6.4. -/
theorem test_rdv : (sent 0x3700000300000000 playing).rsp = 0 ∧ (sent 0x3701000300000000 playing).rsp = 1 ∧
    (sent 0x3700005700000000 playing).err = 0 ∧ (sent 0x3700005800000000 playing).err = 2 ∧
    (sent 0x3700003F00000000 playing).err = 2 ∧ (sent 0x3704000000000000 playing).err = 2 := by decide +kernel

/-! ## Ticks -/

/-- Program P1: the first chunk and what the voice keeps. -/
theorem test_tick_loop : lefts (stepped (due solo)) = [1000, 2000, -3000, -4000, 5000, 2000, -3000, -4000] ∧
    rights (stepped (due solo)) = lefts (stepped (due solo)) ∧
    ((stepped (due solo)).voice 0).pos.srci = 4 ∧ ((stepped (due solo)).voice 0).fieldWord 8 = 0x80008000 := by
  decide +kernel

/-- Section 9.2: `OFF` plays once, ends the voice and raises `VDONE`. -/
theorem test_tick_off : ∃ t, t = stepped (due (sent 0x3100000000000000 (sent 0x2204000000000000 tabled))) ∧
    lefts t = [1000, 2000, -3000, -4000, 5000, 6000, 0, 0] ∧ (t.voice 0).flagsWord = 0x643C0404 ∧ t.err = 0x100 :=
  ⟨_, rfl, by decide +kernel⟩

/-- Section 9.4: `PINGPONG`. -/
theorem test_tick_pingpong : ∃ t, t = stepped (due (sent 0x3100000000000000 (sent 0x2204000000000003 tabled))) ∧
    lefts t = [1000, 2000, -3000, -4000, 5000, 5000, -4000, -3000] ∧ (t.voice 0).pos.srci = 1 ∧
    (t.voice 0).pos.dir = .down :=
  ⟨_, rfl, by decide +kernel⟩

/-- Section 6.6: a silenced 16000 fades from 15000 to 8000, then from 7000 to 0, and is over. -/
theorem test_tick_silenced : ∃ s t u,
    s = sent 0x3300000000000000 (stepped (due (sent 0x3100000000000000 (sent 0x3004000000000001 tabled)))) ∧
    t = stepped (due { s with outrd := 32 }) ∧ u = stepped (due { t with outrd := 32 }) ∧
    lefts t = [15000, 14000, 13000, 12000, 11000, 10000, 9000, 8000] ∧ (t.voice 0).fieldWord 8 = 0x40004000 ∧
    lefts u = [7000, 6000, 5000, 4000, 3000, 2000, 1000, 0] ∧ (u.voice 0).act = false ∧ u.err = 0x100 :=
  ⟨_, _, _, rfl, rfl, rfl, by decide +kernel⟩

/-- Section 10.1: the master ramp after `MSET 0, 16384`. -/
theorem test_tick_master : lefts (stepped (due { sent 0x3100000000000000 (sent 0x3004000000000001 tabled) with mvol := 16384 })) =
    [14500, 13000, 11500, 10000, 8500, 7000, 5500, 4000] := by decide +kernel

/-- Section 7.3 and 7.4: sums of blocks, and a malformed entry. -/
theorem test_graph : (evalTick blocks (playing.voice 0)).dst[23].toInt = 0 ∧
    ((sent 0x3100000000000000 (sent 0x1000000700000064 blocks)).voice 0).fieldWord 0x57 = 58368 ∧
    (sent 0x3100000000000000 (sent 0x2300000000009000 blocks)).err = 0x10 := by decide +kernel

/-- Program P4 and R335: the fifth silent tick without a command goes idle; after a command it does not. -/
theorem test_idle : (stepped (due { opened with silcnt := 4 })).status = 0x053 ∧
    (stepped (due { opened with silcnt := 4 })).err = 0x200 ∧
    (stepped (due { opened with silcnt := 4, cmdseen := true })).status = 0x001 := by decide +kernel

/-! ## Pure functions (95_test_vectors.md section 3) -/

theorem test_exp2C : [exp2C 0, exp2C 78643200, exp2C (-78643200), exp2C 6553600, exp2C (-6553600), exp2C 1, exp2C (-1),
    exp2C 13105600, exp2C 78643199, exp2C (-943718400), exp2C 629145600] =
    [32768, 65536, 16384, 34716, 30928, 32768, 32767, 36780, 65535, 8, 8388608] := by decide +kernel

theorem test_cbToAmp : [cbToAmp 1, cbToAmp (-1), cbToAmp (-65536), cbToAmp (-3932160), cbToAmp (-13107200),
    cbToAmp (-3047040), cbToAmp (-31457280), cbToAmp (-59179008), cbToAmp (-59244544), cbToAmp (-62914559),
    cbToAmp (-62914560)] = [32768, 32767, 32392, 16422, 3276, 19185, 130, 1, 0, 0, 0] := by decide +kernel

theorem test_concave : [0, 1, 255, 256, 257, 1024, 7168, 8192, 16384, 25600, 32767, 32768].map concave =
    [0, 0, 0, 1, 1, 16, 793, 1040, 4390, 12313, 32512, 32768] := by decide +kernel

theorem test_ramp : (List.range 8).map (fun j => ramp 0 130 j 8) = [16, 32, 48, 65, 81, 97, 113, 130] ∧
    (List.range 8).map (fun j => ramp 7 0 j 8) = [6, 5, 4, 3, 2, 1, 0, 0] := by decide +kernel

theorem test_eg_helpers : [1, 2, 3, 4, 147, 32768, 32769, 65535].map egStep = [32768, 16384, 10923, 8192, 223, 1, 1, 1] ∧
    [0, -65536, 65535, 65536, 261488, 4294901760, 4587520000, 1099511627776].map egTime =
      [1, 1, 1, 1, 3, 65535, 65535, 65535] := by decide +kernel

theorem test_lfo_helpers : [0, -1, 1, 65536, 9633792, 2408448, 1204224].map (lfoInc Config.tcfg) =
      [0, 0, 445, 29217464, 4294967295, 1073741824, 536870912] ∧
    [0, 0x10000, 0x20000000, 0x3FFFFFFF, 0x40000000, 0x80000000, 0xBFFFFFFF, 0xC0000000].map (fun p => (lfoTri p).toNat) =
      [16384, 16385, 24576, 32767, 32768, 16384, 1, 0] := by decide +kernel

theorem test_pan : [0, 3, 4, -1, 16384, 32768, -32768, 200000].map (fun x => (panL (panPos x), panR (panPos x))) =
    [(32768, 32768), (32768, 32768), (32766, 32768), (32768, 32766), (24576, 32768), (16384, 32768), (32768, 16384),
      (0, 32768)] := by decide +kernel

theorem test_master_gains : [(182, 16384), (181, 16384), (23171, 16384), (32767, 24576), (32768, 8192)].map
    (fun g => ({ opened with mvol := BitVec.ofNat 16 g.1, mbal := BitVec.ofNat 16 g.2 }.masterL,
      { opened with mvol := BitVec.ofNat 16 g.1, mbal := BitVec.ofNat 16 g.2 }.masterR)) =
    [(1, 1), (0, 0), (16384, 16384), (16383, 32766), (32768, 16384)] := by decide +kernel

/-! ## Witnesses: each obligation's hypotheses can be met, every clause of them at boundary values -/

theorem witness_undefined_opcodes : undefinedOp 0x08 ∧ undefinedOp 0x0F ∧ undefinedOp 0x17 ∧ undefinedOp 0x1F ∧
    undefinedOp 0x24 ∧ undefinedOp 0x2F ∧ undefinedOp 0x38 ∧ undefinedOp 0xFF := by
  unfold undefinedOp
  decide

theorem witness_undefined_opcode_sent :
    { closed with sched := [.cmd 0x0800000000000000] }.sched = .cmd 0x0800000000000000 :: [] ∧
    undefinedOp ((0x0800000000000000 : CmdWord).toNat / 2 ^ 56) ∧ ¬ undefinedOp 0x07 ∧ ¬ undefinedOp 0x10 ∧
    ¬ undefinedOp 0x37 := by
  refine ⟨rfl, ?_⟩
  unfold undefinedOp
  decide

/-- For `MSET` only `A` may differ; for `VSTART` only `B` and `D`. -/
theorem witness_reserved_fields :
    (((fieldsRead 3).1 = true → (0xAA : BitVec 8) = 0) ∧ ((fieldsRead 3).2.1 = true → (1 : BitVec 16) = 1) ∧
      ((fieldsRead 3).2.2 = true → (7 : BitVec 32) = 7)) ∧
    ((fieldsRead 0x31).1 = true → (5 : BitVec 8) = 5) ∧ ((fieldsRead 0x31).2.1 = true → (0xFFFF : BitVec 16) = 0) ∧
      ((fieldsRead 0x31).2.2 = true → (1 : BitVec 32) = 2) := by decide

theorem witness_step_runs : ∃ (s : State) (w : CmdWord) (rest : List Event) (i : Instr), s.sched = .cmd w :: rest ∧
    decode w = .ok i :=
  ⟨{ closed with sched := [.cmd 0x0300000000004000, .refill] }, _, _, .mset 0 16384, rfl, by decide⟩

theorem witness_nop : (0x00FFFFFFFFFFFFFF : CmdWord).toNat / 2 ^ 56 = 0 := by decide

/-- One command of each clause completes: `NOP`, a read, a `CLOSE` that finds `RUN` = 1, one that finds 0, and another. -/
theorem witness_activity : (∃ t, exec .nop playing = .next t) ∧ (∃ t, exec (.rdg 1) playing = .next t) ∧
    (∃ t, exec .close playing = .next t ∧ playing.run = true) ∧ (∃ t, exec .close closed = .next t ∧ closed.run = false) ∧
    ∃ t, exec (.mset 0 0) closed = .next t :=
  ⟨⟨_, rfl⟩, ⟨_, rfl⟩, ⟨_, rfl, rfl⟩, ⟨_, rfl, rfl⟩, ⟨_, rfl⟩⟩

theorem witness_closed_set : (∃ t, exec (.mset 0 0) closed = .next t) ∧
    (inClosedSet (.ccwr 16 0 0) = true ∧ closed.run = false) ∧
    inClosedSet (.mset 0 0) = false ∧ Instr.mset 0 0 ≠ .open_ ∧ Instr.mset 0 0 ≠ .close ∧ Instr.mset 0 0 ≠ .rdg 1 :=
  ⟨⟨_, rfl⟩, by decide⟩

/-- The least operand out of range of every checked command (TCFG), on an open machine. -/
theorem witness_out_of_range : outOfRange opened (.mset 4 0) ∧ outOfRange opened (.ccwr 16 0 0) ∧
    outOfRange opened (.ccwr 0 128 0) ∧ outOfRange opened (.pbwr 16 0) ∧ outOfRange opened (.cpwr 16 0) ∧
    outOfRange opened (.rpnwr 16 0 0) ∧ outOfRange opened (.rpnwr 0 8 0) ∧ outOfRange opened (.nrpnwr 16 0 0) ∧
    outOfRange opened (.nrpnwr 0 16 0) ∧ outOfRange opened (.choff 16 0) ∧ outOfRange opened (.chrel 16 0) ∧
    outOfRange opened (.wptr 64) ∧ outOfRange { opened with wptr := 64 } (.wwr 0) ∧ outOfRange opened (.wtwr 7 0 0) ∧
    outOfRange opened (.wtwr 0 4 0) ∧ outOfRange opened (.cbwr 3 0 0) ∧ outOfRange opened (.cbwr 0 16 0) ∧
    outOfRange opened (.lrwr 11 0) ∧ outOfRange opened (.vstart 4) ∧ outOfRange opened (.voff 4 0) ∧
    outOfRange opened (.voff 0 3) ∧ outOfRange opened (.vsil 4) ∧ outOfRange opened (.vcancel 4) ∧
    outOfRange opened (.vglide 4) ∧ outOfRange opened (.ppwr 4 0) ∧ opened.run = true := by
  simp only [outOfRange]
  decide

/-- The reads out of range, and operands at the end of the range, which are not out of it. -/
theorem witness_range_ends : (outOfRange closed (.rdg 13) ∧ isRead (.rdg 13) = true) ∧ outOfRange closed (.rdv 4 0) ∧
    outOfRange closed (.rdv 0 10) ∧ outOfRange closed (.rdv 0 0x3F) ∧ outOfRange closed (.rdv 0 0x58) ∧
    ¬ outOfRange opened (.ccwr 15 127 0) ∧ ¬ outOfRange opened (.rdv 3 0x57) ∧ ¬ outOfRange opened (.voff 3 2) ∧
    ¬ outOfRange opened (.wptr 63) ∧ ¬ outOfRange opened (.lrwr 10 0) ∧
    ∃ t, exec (.lrwr 10 0) { opened with err := 2 } = .next t ∧ t.err.getLsbD 1 = true := by
  refine ⟨?_, ?_, ?_, ?_, ?_, ?_, ?_, ?_, ?_, ?_, _, rfl, ?_⟩
  all_goals first | decide +kernel | (simp only [outOfRange]; decide)

theorem witness_open_close : closed.run = false ∧ opened.run = true := by decide

theorem witness_mset : (3 : BitVec 16).toNat ≤ 3 := by decide

theorem witness_rdg : (12 : BitVec 16).toNat ≤ 12 ∧ 12 < (13 : BitVec 16).toNat := by decide

theorem witness_channel_writes : opened.run = true ∧ Shaped opened ∧ (15 : BitVec 8).toNat ≤ 15 ∧
    (127 : BitVec 16).toNat ≤ 127 ∧ (7 : BitVec 16).toNat < opened.cfg.nRpn ∧ (15 : BitVec 16).toNat < opened.cfg.nNrpn := by
  decide +kernel

/-- Held and released, marked and pending voices of the channel concerned. -/
theorem witness_channel_off : stolen.run = true ∧ (15 : BitVec 8).toNat ≤ 15 ∧ (stolen.voice 0).pend.valid = true ∧
    (stolen.voice 1).act = true ∧ (stolen.voice 1).flags.on = true ∧ (stolen.voice 1).ident.chan = 1 ∧
    (stolen.voice 3).act = false := by decide +kernel

/-- Pointers inside the memory and at its end, of 64 and of 2^32 elements. -/
theorem witness_samples : (∀ x, (0, x) ∉ ([] : List (Nat × BitVec 16))) ∧
    (63 : BitVec 32).toNat < closed.cfg.waveSize ∧ { playing with wptr := 63 }.wptr.toNat < playing.cfg.waveSize ∧
    ((playing.voice 0).act = true ∧ (playing.voice 0).desc.base.toNat ≤ playing.wptr.toNat ∧
      playing.wptr.toNat < (playing.voice 0).desc.base.toNat + (playing.voice 0).desc.len.toNat) ∧
    (brimful.wptr.toNat < brimful.cfg.waveSize ∧ brimful.cfg.waveSize ≤ 4294967296) ∧
    brimful.cfg.waveSize ≤ { brimful with wptr := 4294967296 }.wptr.toNat ∧
    closed.cfg.waveSize ≤ { closed with wptr := 64 }.wptr.toNat :=
  ⟨fun _ => List.not_mem_nil, by decide +kernel⟩

theorem witness_tables : (6 : BitVec 8).toNat ≤ 6 ∧ (3 : BitVec 16).toNat < closed.cfg.nwt ∧ (2 : BitVec 8).toNat ≤ 2 ∧
    (15 : BitVec 16).toNat < closed.cfg.ncb := by decide

theorem witness_lrwr : (10 : BitVec 8).toNat ≤ 10 ∧ 10 < (11 : BitVec 8).toNat := by decide

theorem witness_vstart_free : tabled.run = true ∧ Shaped tabled ∧ (3 : BitVec 8).toNat < tabled.cfg.nv ∧
    RegistersInRange tabled ∧ slotState (tabled.voice 3) = .free ∧ WavetableOk tabled tabled.lr ∧
    BlockRangeOk tabled tabled.lr := by decide +kernel

/-- A launch with well-formed blocks and one with malformed blocks. -/
theorem witness_vstart_blocks : ∀ s ∈ [blocks, { blocks with cb := [(0, 0x00009000), (1, 0x00170000), (2, 32768), (3, 0),
      (4, 0x00180000), (5, 32768)] }], s.run = true ∧ Shaped s ∧ RegistersInRange s ∧ slotState (s.voice 0) = .free ∧
    WavetableOk s s.lr ∧ BlockRangeOk s s.lr := by decide +kernel

theorem witness_vstart_active : playing.run = true ∧ Shaped playing ∧ (0 : BitVec 8).toNat < playing.cfg.nv ∧
    slotState (playing.voice 0) = .active ∧ WavetableOk playing playing.lr ∧ BlockRangeOk playing playing.lr := by
  decide +kernel

theorem witness_vstart_refused :
    (stolen.run = true ∧ (0 : BitVec 8).toNat < stolen.cfg.nv ∧ (stolen.voice 0).pend.valid = true) ∧
    ((queueing badWt).run = true ∧ ((queueing badWt).voice 3).pend.valid = false ∧
      ¬ WavetableOk (queueing badWt) (queueing badWt).lr) ∧
    ((queueing badCb).voice 3).pend.valid = false ∧ WavetableOk (queueing badCb) (queueing badCb).lr ∧
    ¬ BlockRangeOk (queueing badCb) (queueing badCb).lr ∧ (3 : BitVec 8).toNat < (queueing badCb).cfg.nv := by decide +kernel

/-- The last slot, an active one, and modes 0, 1, 2. -/
theorem witness_slot_commands : playing.run = true ∧ Shaped playing ∧ (3 : BitVec 8).toNat < playing.cfg.nv ∧
    (playing.voice 0).act = true ∧ (playing.voice 3).act = false ∧ (0 : BitVec 32).toNat % 4 ≠ 3 ∧
    (1 : BitVec 32).toNat % 4 ≠ 3 ∧ (2 : BitVec 32).toNat % 4 ≠ 3 := by decide +kernel

theorem witness_rdv : (3 : BitVec 8).toNat < playing.cfg.nv ∧ (9 : BitVec 16).toNat ≤ 9 ∧ 0x40 ≤ (0x40 : BitVec 16).toNat ∧
    (0x57 : BitVec 16).toNat ≤ 0x57 ∧ playing.cfg.nv ≤ (4 : BitVec 8).toNat ∧ 9 < (10 : BitVec 16).toNat ∧
    (0x3F : BitVec 16).toNat < 0x40 ∧ 0x57 < (0x58 : BitVec 16).toNat := by decide +kernel

/-- Each bit raised by its cause, and one cleared. -/
theorem witness_error_bits :
    (sent 0x0800000000000000 opened).err.getLsbD 0 = true ∧ (sent 0x3104000000000000 tabled).err.getLsbD 1 = true ∧
    (sent 0x3100000000000000 stolen).err.getLsbD 2 = true ∧
    (sent 0x3103000000000000 { tabled with lr := { tabled.lr with wt := 4 } }).err.getLsbD 3 = true ∧
    (sent 0x3103000000000000 { tabled with lr := { tabled.lr with cbbase := 17 } }).err.getLsbD 4 = true ∧
    (stepped (due { opened with asen := true, ascnt := 147 })).err.getLsbD 5 = true ∧
    (stepped (due { playing with voices := [{ (playing.voice 0).silence with shut := 1 }] })).err.getLsbD 8 = true ∧
    (stepped (due { opened with silcnt := 4 })).err.getLsbD 9 = true ∧
    (sent 0x0500000000000200 { opened with err := 0x200 }).err.getLsbD 9 = false ∧
    ∀ s, s ∈ [opened, tabled, stolen] → s.err = 0 := by decide +kernel

/-- Each of the first eleven pieces of state changed by a writer of its own: a sample, a descriptor, an entry, the pointer, the
launch record, the response, the enables, a master register, a channel, the counter of ticks, `RUN`. -/
theorem witness_writers : (sent 0x2100000000000005 playing).wave ≠ playing.wave ∧
    (sent 0x2204000000000007 closed).wt ≠ closed.wt ∧ (sent 0x2302000FFC400000 closed).cb ≠ closed.cb ∧
    (sent 0x200000000000003F closed).wptr ≠ closed.wptr ∧ (sent 0x300000000000001F closed).lr ≠ closed.lr ∧
    (sent 0x0700000000000000 closed).rsp ≠ closed.rsp ∧ (sent 0x06000000FFFFFFFF opened).ien ≠ opened.ien ∧
    (sent 0x0300000000004000 closed).mvol ≠ closed.mvol ∧ (sent 0x1001000700000064 opened).chans ≠ opened.chans ∧
    (stepped (due opened)).tickcnt ≠ opened.tickcnt ∧ (sent 0x0100000000000000 closed).run ≠ closed.run := by
  decide +kernel

/-- The other pieces: `ASEN` by its command and by the watchdog, the activity marks, `SILCNT`, the output buffer and its index
by a `Refill` and a `PullByte`, the slots by a command and by a tick. -/
theorem witness_other_writers : (sent 0x0400000000000001 closed).asen ≠ closed.asen ∧
    (stepped (due { opened with asen := true, ascnt := 147 })).asen = false ∧
    (sent 0x0300000000004000 closed).cmdseen ≠ closed.cmdseen ∧ (stepped (due opened)).ascnt ≠ opened.ascnt ∧
    (stepped (due { opened with silcnt := 4 })).idle ≠ opened.idle ∧ (stepped (due opened)).silcnt ≠ opened.silcnt ∧
    (stepped (due solo)).outbuf ≠ solo.outbuf ∧ (stepped (due solo)).outrd ≠ solo.outrd ∧
    (stepped { opened with sched := [.pullByte], outrd := 31 }).outrd = 32 ∧
    (sent 0x3300000000000000 playing).voices ≠ playing.voices ∧ (stepped (due playing)).voices ≠ playing.voices := by
  decide +kernel

/-- A command word and a due tick are no `Reset`, and each has a next state. -/
theorem witness_no_reset : step (due playing) = .next (stepped (due playing)) ∧ (due playing).sched.head? ≠ some .reset ∧
    (playing.schedule (.cmd 0x2100000000000005)).sched.head? ≠ some .reset :=
  ⟨rfl, by decide +kernel⟩

theorem witness_slot_states : step (due stolen) = .next (stepped (due stolen)) ∧
    slotState ((sent 0x3100000000000000 tabled).voice 0) = .active ∧
    slotState (tabled.voice 0) = .free ∧ slotState ((sent 0x3100000000000000 playing).voice 0) = .releasingPending ∧
    slotState ((sent 0x3400000000000000 stolen).voice 0) = .active ∧
    slotState ((stepped (due stolen)).voice 2) = .active ∧ slotState (stolen.voice 2) = .freeQueued :=
  ⟨rfl, by decide +kernel⟩

theorem witness_envelopes : step (due playing) = .next (stepped (due playing)) ∧ ((due playing).voice 0).act = true ∧
    ((stepped (due playing)).voice 0).act = true :=
  ⟨rfl, by decide +kernel⟩

theorem witness_output_port : ({ due opened with idle := true }.run = true ∧
      { due opened with idle := true }.outrd = 4 * opened.cfg.chunk) ∧ (closed.run = false ∧ (31 : Nat) ≠ 4 * closed.cfg.chunk) ∧
    Shaped { opened with sched := [.pullByte], outrd := 31 } ∧
    { opened with sched := [.pullByte], outrd := 31 }.outrd < 4 * opened.cfg.chunk ∧ 4 * opened.cfg.chunk ≤ opened.outrd ∧
    opened.sched = [] := by decide +kernel

theorem witness_bytes : ∃ (s : State) (rest : List Event), s.run = true ∧ 1 ≤ s.cfg.chunk ∧ s.outrd ≤ 4 * s.cfg.chunk ∧
    s.sched = .refill :: .pullByte :: rest :=
  ⟨{ playing with sched := [.refill, .pullByte] }, [], by decide +kernel⟩

theorem witness_reset : { playing with sched := [.reset, .refill] }.sched = .reset :: [.refill] := rfl

theorem witness_tick_due : TickDue (due playing) := by decide +kernel

/-- The watchdog is due at count 147 and not yet at 146. -/
theorem witness_watchdog :
    step (due { stolen with asen := true, ascnt := 147 }) = .next (stepped (due { stolen with asen := true, ascnt := 147 })) ∧
    TickDue (due { stolen with asen := true, ascnt := 147 }) ∧ WatchdogDue (due { stolen with asen := true, ascnt := 147 }) ∧
    ¬ WatchdogDue (due { stolen with asen := true, ascnt := 146 }) ∧
    3 < stolen.voices.length ∧ (stolen.voice 0).act = true ∧ (stolen.voice 2).act = false :=
  ⟨rfl, by decide +kernel⟩

/-- A silent chunk without a command, one with a command, and a chunk that is not silent. -/
theorem witness_silence : TickDue (due { opened with silcnt := 4 }) ∧
    ((∀ b ∈ (stepped (due { opened with silcnt := 4 })).outbuf, b = 0) ∧ opened.cmdseen = false) ∧
    { opened with cmdseen := true }.cmdseen ≠ false ∧ ¬ (∀ b ∈ (stepped (due solo)).outbuf, b = 0) := by decide +kernel

theorem witness_output : step (due playing) = .next (stepped (due playing)) ∧ TickDue (due playing) ∧
    RegistersInRange (due playing) ∧ 7 < (due playing).cfg.chunk :=
  ⟨rfl, by decide +kernel⟩

theorem witness_promoted : step (due stolen) = .next (stepped (due stolen)) ∧ TickDue (due stolen) ∧
    ¬ WatchdogDue (due stolen) ∧ 2 < (due stolen).voices.length ∧ slotState ((due stolen).voice 2) = .freeQueued ∧
    WavetableOk (due stolen) ((due stolen).voice 2).pend.launch ∧
    BlockRangeOk (due stolen) ((due stolen).voice 2).pend.launch ∧ PromotedBy (due stolen) ((due stolen).voice 2) :=
  ⟨rfl, by decide +kernel⟩

theorem witness_not_promoted : ∀ r ∈ [badWt, badCb], TickDue (due (queueing r)) ∧ ¬ WatchdogDue (due (queueing r)) ∧
    slotState ((due (queueing r)).voice 0) = .freeQueued ∧ ((due (queueing r)).voice 0).pend.launch = r ∧
    (WavetableOk (due (queueing r)) r ↔ r = badCb) ∧ ¬ (WavetableOk (due (queueing r)) r ∧ BlockRangeOk (due (queueing r)) r) := by
  decide +kernel

theorem witness_silenced : 0 < stolen.voices.length ∧ 1 ≤ stolen.cfg.shutStep ∧ (stolen.voice 0).act = true ∧
    (stolen.voice 0).flags.silencing = true ∧ (stolen.voice 0).shut.toNat ≤ 32768 := by decide +kernel

theorem witness_control : RegistersInRange playing ∧ VoiceInRange (playing.voice 0) := by decide +kernel

theorem witness_tick_voices : step (due playing) = .next (stepped (due playing)) ∧ TickDue (due playing) ∧
    ¬ WatchdogDue (due playing) ∧ 3 < (due playing).voices.length ∧ slotState ((due playing).voice 3) = .free ∧
    ((due playing).voice 0).act = true :=
  ⟨rfl, by decide +kernel⟩

theorem witness_audio : (playing.voice 0).stale = [] ∧ 7 < playing.cfg.chunk := by decide +kernel

/-- The buses of these states are all zero. -/
theorem zero_in_bounds {n : Nat} {x : BitVec 32} (h : x ∈ List.replicate n (0 : BitVec 32)) :
    -268435456 ≤ x.toInt ∧ x.toInt ≤ 268435456 := by
  rw [List.eq_of_mem_replicate h]
  decide

/-- So are the delay buses of these states. -/
theorem delays_bounded {s : State} {n : Nat}
    (h : s.buses.dl ++ s.buses.dr ++ s.buses.dm ++ s.buses.de1 ++ s.buses.de2 = List.replicate n 0) : DelaysBounded s :=
  fun _ hx => zero_in_bounds (h ▸ hx)

theorem witness_mixing : (NoHazard playing ∧ Shaped playing ∧ VoicesInRange playing ∧ playing.cfg.nv ≤ 256) ∧
    (∀ x ∈ playing.buses.l ++ playing.buses.r ++ playing.buses.m ++ playing.buses.e1 ++ playing.buses.e2,
      -268435456 ≤ x.toInt ∧ x.toInt ≤ 268435456) ∧ playing.voices.reverse.Perm playing.voices :=
  ⟨by decide +kernel, fun _ h => zero_in_bounds (n := 40) h, List.reverse_perm _⟩

/-- `stolen` in a due tick with that effect unit. -/
def stolenWith (fx : FxUnit) : State := due { stolen with cfg := { stolen.cfg with fx := fx } }

/-- A tick with two sounding voices, a silenced one among them, and a promoted one, with the test unit. -/
theorem witness_buses : step (stolenWith .echo) = .next (stepped (stolenWith .echo)) ∧ DelaysBounded (stolenWith .echo) ∧
    TickDue (stolenWith .echo) ∧ Shaped (stolenWith .echo) ∧ NoHazard (stolenWith .echo) ∧
    RegistersInRange (stolenWith .echo) ∧ VoicesInRange (stolenWith .echo) ∧ (stolenWith .echo).cfg.nv ≤ 256 ∧
    (stolenWith .echo).voices.map (fun v => (soundsAs (stolenWith .echo) v).isSome) = [true, true, true, false] :=
  ⟨rfl, delays_bounded (n := 40) rfl, by decide +kernel⟩

/-- The test unit's answer to a chunk of sends of 7 on E1 and none on E2. -/
def answered : FxOut :=
  fxAnswer (stolenWith .echo).cfg 0 (List.replicate 8 5) (List.replicate 8 5) (List.replicate 8 7) (List.replicate 8 0)

/-- It meets the contract. -/
theorem witness_contract : FxContract (stolenWith .echo).cfg.chunk answered := by
  refine ⟨rfl, rfl, rfl, rfl, rfl, rfl, rfl, fun x h => ?_⟩
  have split : x ∈ List.replicate 8 7 ++ List.replicate 32 0 := h
  rcases List.mem_append.mp split with h | h
  · rw [List.eq_of_mem_replicate h]
    decide
  · exact zero_in_bounds h

theorem witness_empty_tick : step (due opened) = .next (stepped (due opened)) ∧ (due opened).cfg.fx = .null ∧
    TickDue (due opened) ∧ Shaped (due opened) ∧ ∀ v ∈ (due opened).voices, slotState v = .free :=
  ⟨rfl, rfl, by decide +kernel⟩

theorem witness_destinations : RegistersInRange blocks ∧ VoiceInRange (freshVoice blocks blocks.lr) := by decide +kernel

/-- Two different blocks, the other way round. -/
theorem witness_block_order : ∃ (s : State) (v : Voice) (cb : Memory 32), cb ≠ s.cb ∧
    ((List.range v.ident.cbcnt.toNat).map (block { s with cb := cb } v)).Perm
      ((List.range v.ident.cbcnt.toNat).map (block s v)) :=
  ⟨blocks, freshVoice blocks blocks.lr,
    [(0, 0), (1, 0x00170000), (2, 32768), (3, 0x00002007), (4, 0x00170000), (5, 32768)], by decide +kernel,
    List.Perm.swap _ _ []⟩

/-- Every clause: the last index of each category, and the first bad one. -/
theorem witness_sources : Shaped opened ∧ RegistersInRange opened ∧ VoiceInRange (playing.voice 0) ∧
    (0x207F : BitVec 16).toNat = 0x2000 + (127 : Fin 128).val ∧
    ((7 : Nat) < opened.cfg.nRpn ∧ (0x3007 : BitVec 16).toNat = 0x3000 + 7 ∧ (opened.chan 0).rpn[7]? = some 0) ∧
    ((15 : Nat) < opened.cfg.nNrpn ∧ (0x400F : BitVec 16).toNat = 0x4000 + 15 ∧ (opened.chan 0).nrpn[15]? = some 0) := by
  decide +kernel

theorem witness_bad_selectors : badSelector Config.tcfg 0x1003 ∧ badSelector Config.tcfg 0x2080 ∧
    badSelector Config.tcfg 0x3008 ∧ badSelector Config.tcfg 0x4010 ∧ badSelector Config.tcfg 0x5003 ∧
    badSelector Config.tcfg 0x6002 ∧ badSelector Config.tcfg 0x7002 ∧ badSelector Config.tcfg 0x8004 ∧
    badSelector Config.tcfg 0x9000 ∧ ¬ badSelector Config.tcfg 0x8003 := by
  refine ⟨?_, ?_, ?_, ?_, ?_, ?_, ?_, ?_, ?_, ?_⟩
  all_goals
    simp only [badSelector]
    decide

/-- Absent and present sources, and each shape. -/
theorem witness_transforms : RegistersInRange playing ∧ VoiceInRange (playing.voice 0) ∧ (0x0FFF : BitVec 16).toNat < 4096 ∧
    4096 ≤ (0x1000 : BitVec 16).toNat ∧ (0 : BitVec 8).toNat / 4 % 4 = 0 ∧ (4 : BitVec 8).toNat / 4 % 4 = 1 ∧
    (8 : BitVec 8).toNat / 4 % 4 = 2 ∧ (12 : BitVec 8).toNat / 4 % 4 = 3 := by decide +kernel

/-- One voice whose two entries are malformed: a bad selector, a reserved destination number. -/
def malformed : State :=
  { blocks with cb := [(0, 0x00009000), (1, 0x00170000), (2, 32768), (3, 0), (4, 0x00180000), (5, 32768)] }

/-- The causes of `CBBAD`, by the evaluations: an active voice in a tick, and the same record at `VSTART`; no cause with the
good entries. -/
theorem witness_malformed : ∃ s, s = due { malformed with voices := [freshVoice malformed malformed.lr] } ∧
    step s = .next (stepped s) ∧ s.sched.head? ≠ some .reset ∧ nextCommand s = none ∧ (s.voice 0).act = true ∧
    evalTickBad s (s.voice 0) = true ∧ evalInitBad s (s.voice 0) = false ∧
    (stepped s).err.getLsbD 4 = true ∧ (sent 0x3100000000000000 malformed).err.getLsbD 4 = true ∧
    (sent 0x3100000000000000 blocks).err = 0 :=
  ⟨_, rfl, rfl, by decide +kernel⟩

/-- The words of the two sides of the equivalence, on those entries. -/
theorem witness_malformed_entries : malformedAtTick malformed 0 2 ∧ ¬ malformedAtTick blocks 0 2 := by
  constructor
  all_goals
    simp only [malformedAtTick, malformedEntry, malformedSource, badSelector]
    decide +kernel

theorem witness_note_on : RegistersInRange blocks ∧ VoiceInRange (freshVoice blocks blocks.lr) ∧
    (freshVoice blocks blocks.lr).forced = { fvelv := false, fkeyv := false, fvel := 0, fkey := 0 } := by decide +kernel

theorem witness_envelope_steps : EgInRange { stage := .idle, level := 0 } ∧ EgInRange { stage := .attack, level := 32768 } ∧
    EgInRange { stage := .decay, level := 0 } ∧ EgInRange { stage := .sustain, level := 1 } ∧
    EgInRange { stage := .release, level := 32768 } ∧ EgInRange { stage := .done, level := 0 } := by decide

/-- A two-tick release from the top, and the release of an envelope that is already at 0. -/
theorem witness_release : (32768 : BitVec 16).toNat ≤ 32768 ∧ ((2 : Nat) : Int) = max 1 (min 65535 (131072 / 65536)) ∧
    2 = max 1 ((32768 + (32768 + 2 - 1) / 2 - 1) / ((32768 + 2 - 1) / 2)) ∧
    1 = max 1 ((0 + (32768 + 2 - 1) / 2 - 1) / ((32768 + 2 - 1) / 2)) := by decide

theorem witness_lfos : { Lfo.reset with dcnt := 1 }.dcnt ≠ 0 ∧ Lfo.reset.dcnt = 0 := by decide

/-- A descriptor of each loop mode, the loop reaching the end of the view. -/
theorem witness_loops : (∀ m ∈ [LoopMode.forward, .release, .pingpong, .off],
      DescPlayable tabled.cfg.waveSize { (playing.voice 0).desc with lmode := m, lstart := 2 }) ∧
    tabled.cfg.waveSize ≤ 4294967296 ∧ 1 ≤ tabled.cfg.fs ∧ (playing.voice 0).desc.rate.toNat = tabled.cfg.fs := by
  decide +kernel

/-- Every clause of the resampler: no loop in force, at the last sample and before it, with mode `OFF` and after a `RELEASE`
loop's release; a loop at its end; to and fro, up and down; a position that has ended. -/
theorem witness_resampler : ∀ x ∈ [(LoopMode.off, false, Dir.up, 3, false), (.off, false, .up, 5, true),
      (.release, false, .up, 5, false), (.release, true, .up, 4, false), (.forward, true, .up, 0, false),
      (.pingpong, true, .up, 4, false), (.pingpong, true, .down, 2, false), (.pingpong, true, .down, 4, false)],
    DescPlayable tabled.cfg.waveSize { (playing.voice 0).desc with lmode := x.1, lstart := 2, llen := 3 } ∧
    PosInView { (playing.voice 0).desc with lmode := x.1, lstart := 2, llen := 3 }
      { srci := BitVec.ofNat 32 x.2.2.2.1, frac := 16384, dir := x.2.2.1, loopen := x.2.1, ended := x.2.2.2.2 } := by
  decide +kernel

theorem witness_invariants : ∃ s : State, step s = .next (stepped s) ∧ DelaysBounded s ∧
    (s.sched ≠ [] ∧ TablesInSpace s ∧ RegistersInRange s ∧ VoicesInRange s) ∧
    (SlotsFollowProtocol s ∧ VoicesPlayInView s ∧ HazardsInLiveViews s) ∧ Shaped s ∧ IdleIsOpen s ∧ ClosedIsQuiet s := by
  refine ⟨due stolen, rfl, delays_bounded (n := 40) rfl, ?_, ?_, ?_, ?_⟩ <;> decide +kernel

/-- The invariant of the closed machine on a state that is closed. -/
theorem witness_closed_quiet : ClosedIsQuiet { closed with sched := [.cmd 0x0300000000004000] } ∧
    { closed with sched := [.cmd 0x0300000000004000] }.run = false := by decide +kernel

end Sys2Proof.Tests
end

section
/-! A delivered word runs as the command it decodes to, and every command and step completes (R103, R361, R385). -/

namespace Sys2Proof.Machine

/-- Every meaning ends in `done`, so every command leaves a next state (R385). -/
theorem exec_completes (i : Instr) (s : State) : ∃ t, exec i s = .next t := by
  cases i <;> exact ⟨_, rfl⟩

/-- A delivered word that decodes runs as its command (R5, R103). -/
theorem step_cmd_of_decode_ok {s : State} {w : CmdWord} {rest : List Event} {i : Instr} (hs : s.sched = .cmd w :: rest)
    (hw : decode w = .ok i) : step s = exec i { s with sched := rest } := by
  simp [step, takeEvent_cons hs, hw]

/-- A delivered word with an undefined opcode only raises `ILLOP` (R103 stage 1, R115). -/
theorem step_cmd_of_decode_error {s : State} {w : CmdWord} {rest : List Event} {e : DecodeError}
    (hs : s.sched = .cmd w :: rest) (hw : decode w = .error e) : step s = .next (undefinedOpcode { s with sched := rest }) := by
  simp [step, takeEvent_cons hs, hw]

/-- Every transition leaves a next state (R361, R385). -/
theorem step_completes (s : State) : ∃ t, step s = .next t := by
  cases hs : s.sched with
  | nil => exact ⟨s, by simp [step, takeEvent_nil hs]⟩
  | cons e rest =>
    cases e with
    | cmd w =>
      cases hw : decode w with
      | ok i => rw [step_cmd_of_decode_ok hs hw]; exact exec_completes i _
      | error e => exact ⟨_, step_cmd_of_decode_error hs hw⟩
    | refill => exact ⟨refill { s with sched := rest }, by simp [step, takeEvent_cons hs]⟩
    | pullByte => exact ⟨pullByte { s with sched := rest }, by simp [step, takeEvent_cons hs]⟩
    | reset => exact ⟨resetMachine { s with sched := rest }, by simp [step, takeEvent_cons hs]⟩

/-- Settles O5: the step is read off the schedule's head, and each arm of `exec` and of `step` is a next state. -/
theorem stepRunsTheDecodedCommand : Obligations.StepRunsTheDecodedCommand :=
  ⟨fun _ _ _ _ hs hw => step_cmd_of_decode_ok hs hw, exec_completes, step_completes⟩

end Sys2Proof.Machine
end

section
/-! The WAVE pointer, the stored sample and what a voice reads there (R160, R161, R386). -/

namespace Sys2Proof.Machine
open Safety

/-! ## What a voice reads -/

/-- The earlier values at an element are those the list pairs with it. -/
theorem mem_staleAt {stale : List (Nat × BitVec 16)} {a : Nat} {x : BitVec 16} : x ∈ staleAt stale a ↔ (a, x) ∈ stale := by
  simp [staleAt]

/-- Without an earlier value a read is the memory's present value and takes no free choice. -/
theorem State.voiceRead_of_not_stale {stale : List (Nat × BitVec 16)} {a : Nat} (s : State) (ctr : Nat)
    (h : ∀ x, (a, x) ∉ stale) : s.voiceRead stale ctr a = (s.waveRead a, ctr) := by
  have hnil : staleAt stale a = [] := List.eq_nil_iff_forall_not_mem.mpr fun x hx => h x (mem_staleAt.mp hx)
  simp [State.voiceRead, hnil]

/-- A read is the present value or an earlier one (R386). -/
theorem State.voiceRead_eq_or_stale (s : State) (stale : List (Nat × BitVec 16)) (ctr a : Nat) :
    (s.voiceRead stale ctr a).1 = s.waveRead a ∨ (a, (s.voiceRead stale ctr a).1) ∈ stale := by
  cases h : staleAt stale a with
  | nil => simp [State.voiceRead, h]
  | cons old olds =>
    have hlt : Config.hazardPick ctr % (olds.length + 2) < (s.waveRead a :: old :: olds).length := Nat.mod_lt _ (by omega)
    have hmem : (s.voiceRead stale ctr a).1 ∈ s.waveRead a :: old :: olds := by
      simp only [State.voiceRead, h, List.getD_eq_getElem _ _ hlt]
      exact List.getElem_mem hlt
    rcases List.mem_cons.mp hmem with hnow | hold
    · exact .inl hnow
    · exact .inr (mem_staleAt.mp (h ▸ hold))

/-! ## The two commands -/

/-- `WPTR` to an element of the memory (R160). -/
theorem exec_wptr_of_lt {s : State} {a : BitVec 32} (h : a.toNat < s.cfg.waveSize) :
    exec (.wptr a) s = .next { s.mark with wptr := a.setWidth 33 } := by
  simp [exec, execWptr, done, activityCommand, checkRange, h]

/-- `WWR` with the pointer below the end (R161). -/
theorem exec_wwr_of_lt {s : State} (d : BitVec 32) (h : s.wptr.toNat < s.cfg.waveSize) :
    exec (.wwr d) s = .next (s.mark.storeSample (low16 d)) := by
  simp [exec, execWwr, done, activityCommand, checkRange, h]

/-- `WWR` with the pointer at the end (R161). -/
theorem exec_wwr_of_ge {s : State} (d : BitVec 32) (h : s.cfg.waveSize ≤ s.wptr.toNat) :
    exec (.wwr d) s = .next (s.mark.raise .range) := by
  simp [exec, execWwr, done, activityCommand, checkRange, Nat.not_lt.mpr h]

/-- `RDG 11` answers the low 32 bits of the pointer (R127). -/
theorem exec_rdg_wptr (s : State) : exec (.rdg 11) s = .next { s with rsp := s.wptr.setWidth 32 } := rfl

/-! ## The stored sample -/

/-- The stored sample changes the element at the pointer and no other. -/
theorem State.storeSample_read? (s : State) (x : BitVec 16) (a : Nat) :
    (s.storeSample x).wave.read? a = if a = s.wptr.toNat then some x else s.wave.read? a :=
  Memory.read?_write ..

theorem State.storeSample_waveRead (s : State) (x : BitVec 16) (a : Nat) :
    (s.storeSample x).waveRead a = if a = s.wptr.toNat then x else s.waveRead a := by
  have hepoch : (s.storeSample x).epoch = s.epoch := rfl
  simp only [State.waveRead, State.storeSample_read?, hepoch]
  split <;> rfl

/-- Storing a sample notes the rewritten element in each slot (R386). -/
theorem State.storeSample_voice {s : State} {v : Nat} (x : BitVec 16) (hv : v < s.voices.length) :
    (s.storeSample x).voice v = (s.voice v).noteRewrite s.wptr.toNat (s.waveRead s.wptr.toNat) :=
  s.voice_map (fun v => v.noteRewrite s.wptr.toNat (s.waveRead s.wptr.toNat)) hv _ rfl

/-- Noting a rewritten element touches nothing but the list of earlier values. -/
theorem Voice.noteRewrite_frame (v : Voice) (a : Nat) (old : BitVec 16) :
    { v.noteRewrite a old with stale := v.stale } = v := by
  unfold Voice.noteRewrite; split <;> rfl

/-- The earlier values are lengthened only for an active voice whose view holds the element. -/
theorem Voice.noteRewrite_stale_of_view (v : Voice) (a : Nat) (old : BitVec 16) :
    (v.noteRewrite a old).stale =
      if v.act = true ∧ v.desc.base.toNat ≤ a ∧ a < v.desc.base.toNat + v.desc.len.toNat then (a, old) :: v.stale
      else v.stale := by
  simp [Desc.covers]

/-- Settles O16, from the frame of each command and the two facts about what a voice reads. -/
theorem wavePointerAndSamples : Obligations.WavePointerAndSamples := by
  refine ⟨fun s stale ctr a => ⟨s.voiceRead_eq_or_stale stale ctr a, s.voiceRead_of_not_stale ctr⟩,
    fun s a h => ⟨_, exec_wptr_of_lt h, ?_, rfl⟩, fun s d h => exec_wwr_of_ge d h, fun s => ?_, fun s d h => ?_⟩
  · exact BitVec.toNat_setWidth_of_le (by omega)
  · rw [exec_rdg_wptr, ← BitVec.ofNat_toNat]
  · refine ⟨_, exec_wwr_of_lt d h, s.mark.storeSample_waveRead _, fun a ha => ?_, rfl, s.mark.storeSample_wptr _ h, rfl,
      List.length_map .., fun v hv => ?_⟩
    · exact (s.mark.storeSample_read? _ a).trans (if_neg ha)
    · rw [s.mark.storeSample_voice _ hv]
      exact ⟨Voice.noteRewrite_frame .., Voice.noteRewrite_stale_of_view ..⟩

end Sys2Proof.Machine
end

section
/-! `Concave` is the integer quarter circle (R14). -/

namespace Sys2Proof.Machine

theorem ceilsqrt_isLeast (n : Nat) : IsLeast {r : Nat | n ≤ r * r} (ceilsqrt n) :=
  ⟨(ceilsqrt_le_iff n _).mp le_rfl, fun r hr => (ceilsqrt_le_iff n r).mpr hr⟩

/-- A larger argument has no smaller root. -/
theorem ceilsqrt_mono {m n : Nat} (h : m ≤ n) : ceilsqrt m ≤ ceilsqrt n :=
  (ceilsqrt_le_iff m _).mpr (h.trans (ceilsqrt_isLeast n).1)

/-- The ordinate of the circle over `x`, from which `Concave` is counted down, is at most full scale. -/
theorem ceilsqrt_circle_le (x : Nat) : ceilsqrt (one * one - x * x) ≤ one :=
  (ceilsqrt_le_iff _ _).mpr (Nat.sub_le ..)

/-- Counted down from full scale, `Concave` is the ordinate of the circle. -/
theorem one_sub_concave (x : Nat) : one - concave x = ceilsqrt (one * one - x * x) :=
  Nat.sub_sub_self (ceilsqrt_circle_le x)

theorem concave_mono {x y : Nat} (h : x ≤ y) : concave x ≤ concave y :=
  Nat.sub_le_sub_left (ceilsqrt_mono (Nat.sub_le_sub_left (Nat.mul_le_mul h h) _)) _

/-- The circle lies above its chord: (1 − x)² ≤ 1 − x², so `Concave` is below the diagonal (R14). -/
theorem concave_le_self {x : Nat} (hx : x ≤ one) : concave x ≤ x := by
  have hchord : one - x ≤ ceilsqrt (one * one - x * x) := by
    refine Nat.mul_self_le_mul_self_iff.mp ?_
    calc (one - x) * (one - x) ≤ (one + x) * (one - x) := Nat.mul_le_mul_right _ (by omega)
      _ = one * one - x * x := (Nat.mul_self_sub_mul_self_eq one x).symm
      _ ≤ _ := (ceilsqrt_isLeast _).1
  unfold concave; omega

/-- Settles O49, from what `ceilsqrt` is. -/
theorem concaveIsTheQuarterCircle : Obligations.ConcaveIsTheQuarterCircle :=
  ⟨fun x _ => ⟨Nat.sub_le .., one_sub_concave x ▸ ceilsqrt_isLeast _⟩, by decide, by decide,
    fun _ _ h _ => concave_mono h, fun _ hx => concave_le_self hx⟩

end Sys2Proof.Machine
end

section
/-! The tabled factors of `Exp2C` and `CbToAmp` are right to their last bit (R12, R13). From bounds on one high power of the
base, square roots with 64 guard bits lead down to every tabled factor; the kernel computes them once per table. -/

namespace Sys2Proof.Machine

/-! ## What a table of factors stands for -/

/-- The table holds, each to one unit of `romScale`, the powers x, x², x⁴, … of its base. -/
def TablesSquares : ℝ → List Nat → Prop
  | _, [] => True
  | x, a :: as => ((a : ℝ) ≤ x * romScale ∧ x * romScale ≤ (a : ℝ) + 1) ∧ TablesSquares (x ^ 2) as

/-- The scale of the roots that check a table: 64 guard bits below `romScale`. -/
def guardScale : Nat := romScale * 2 ^ 64

/-- From the highest factor down: roots of the bounds `l`, `u` on the square of a factor settle the factor. -/
def rootsSettle : List Nat → Nat → Nat → Bool
  | [], _, _ => true
  | a :: as, l, u =>
    decide (a * 2 ^ 64 ≤ isqrt (l * guardScale)) && decide (isqrt (u * guardScale) + 1 ≤ (a + 1) * 2 ^ 64) &&
      rootsSettle as (isqrt (l * guardScale)) (isqrt (u * guardScale) + 1)

theorem romScale_pos : (0 : ℝ) < romScale := Nat.cast_pos.mpr (Nat.two_pow_pos 96)

theorem guardScale_eq : (guardScale : ℝ) = romScale * 2 ^ 64 := by unfold guardScale; push_cast; ring

theorem guardScale_pos : (0 : ℝ) < guardScale := by have := romScale_pos; rw [guardScale_eq]; positivity

/-- The integer square roots of two bounds on a square, the upper one rounded up, bound its root. -/
theorem isqrt_bounds {y : ℝ} {l u : Nat} (hy : 0 ≤ y) (hl : (l : ℝ) ≤ y ^ 2) (hu : y ^ 2 ≤ u) :
    (isqrt l : ℝ) ≤ y ∧ y ≤ (isqrt u + 1 : Nat) := by
  have hlow : isqrt l ^ 2 ≤ l := by simpa [sq] using (isqrt_spec l).1
  have hup : u ≤ (isqrt u + 1) ^ 2 := by simpa [sq] using (isqrt_spec u).2.le
  constructor
  · refine le_of_sq_le_sq ?_ hy
    calc (isqrt l : ℝ) ^ 2 ≤ l := by exact_mod_cast hlow
      _ ≤ y ^ 2 := hl
  · refine le_of_sq_le_sq ?_ (Nat.cast_nonneg _)
    calc y ^ 2 ≤ u := hu
      _ ≤ ((isqrt u + 1 : Nat) : ℝ) ^ 2 := by exact_mod_cast hup

/-- Bounds on a scaled square lead to bounds on the scaled root. -/
theorem isqrt_guard_bounds {y : ℝ} {l u : Nat} (hy : 0 ≤ y) (hl : (l : ℝ) ≤ y ^ 2 * guardScale)
    (hu : y ^ 2 * guardScale ≤ u) :
    (isqrt (l * guardScale) : ℝ) ≤ y * guardScale ∧ y * guardScale ≤ (isqrt (u * guardScale) + 1 : Nat) := by
  have hg := guardScale_pos
  refine isqrt_bounds (by positivity) ?_ ?_
  · calc ((l * guardScale : Nat) : ℝ) = l * guardScale := Nat.cast_mul ..
      _ ≤ y ^ 2 * guardScale * guardScale := mul_le_mul_of_nonneg_right hl hg.le
      _ = (y * guardScale) ^ 2 := by ring
  · calc (y * (guardScale : ℝ)) ^ 2 = y ^ 2 * guardScale * guardScale := by ring
      _ ≤ (u : ℝ) * guardScale := mul_le_mul_of_nonneg_right hu hg.le
      _ = ((u * guardScale : Nat) : ℝ) := (Nat.cast_mul ..).symm

/-- Bounds with guard bits that lie between a factor and the next number settle the factor. -/
theorem factor_bounds_of_guard {y : ℝ} {a l u : Nat} (hl : (l : ℝ) ≤ y * guardScale) (hu : y * guardScale ≤ u)
    (hal : a * 2 ^ 64 ≤ l) (hua : u ≤ (a + 1) * 2 ^ 64) : (a : ℝ) ≤ y * romScale ∧ y * romScale ≤ (a : ℝ) + 1 := by
  have hal' : (a : ℝ) * 2 ^ 64 ≤ l := by exact_mod_cast hal
  have hua' : (u : ℝ) ≤ ((a : ℝ) + 1) * 2 ^ 64 := by exact_mod_cast hua
  rw [guardScale_eq] at hl hu
  constructor <;> nlinarith only [hl, hu, hal', hua']

/-- A table that the roots settle holds the squares of its base, if `l` and `u` bound the square above its highest one. -/
theorem tablesSquares_of_rootsSettle {x : ℝ} {gs fs : List Nat} {l u : Nat} (hx : 0 ≤ x)
    (hl : (l : ℝ) ≤ x ^ 2 ^ gs.length * guardScale) (hu : x ^ 2 ^ gs.length * guardScale ≤ u)
    (hfs : TablesSquares (x ^ 2 ^ gs.length) fs) (h : rootsSettle gs l u = true) : TablesSquares x (gs.reverse ++ fs) := by
  induction gs generalizing l u fs with
  | nil => simpa using hfs
  | cons a as ih =>
    have hsq : x ^ 2 ^ (a :: as).length = (x ^ 2 ^ as.length) ^ 2 := by rw [List.length_cons, pow_succ, pow_mul]
    rw [hsq] at hl hu hfs
    simp only [rootsSettle, Bool.and_eq_true, decide_eq_true_eq] at h
    obtain ⟨⟨hal, hua⟩, hrest⟩ := h
    obtain ⟨hl', hu'⟩ := isqrt_guard_bounds (pow_nonneg hx _) hl hu
    rw [List.reverse_cons, List.append_assoc]
    exact ih hl' hu' ⟨factor_bounds_of_guard hl' hu' hal hua, hfs⟩ hrest

/-- A root of the number c / d, bounded by an integer test on the powers. -/
theorem root_bounds {y : ℝ} {n c d l : Nat} (hy : 0 ≤ y) (hn : n ≠ 0) (hd : 0 < d) (hpow : y ^ n * d = c)
    (hlow : l ^ n * d ≤ c * guardScale ^ n) (hup : c * guardScale ^ n ≤ (l + 1) ^ n * d) :
    (l : ℝ) ≤ y * guardScale ∧ y * guardScale ≤ (l + 1 : Nat) := by
  have hscaled : (y * guardScale) ^ n * d = (c * guardScale ^ n : Nat) := by
    push_cast; rw [mul_pow, mul_right_comm, hpow]
  have hd' : (0 : ℝ) < d := Nat.cast_pos.mpr hd
  have hyg : 0 ≤ y * guardScale := mul_nonneg hy guardScale_pos.le
  constructor
  · refine (pow_le_pow_iff_left₀ (Nat.cast_nonneg _) hyg hn).mp (le_of_mul_le_mul_right ?_ hd')
    rw [hscaled]; exact_mod_cast hlow
  · refine (pow_le_pow_iff_left₀ hyg (Nat.cast_nonneg _) hn).mp (le_of_mul_le_mul_right ?_ hd')
    rw [hscaled]; exact_mod_cast hup

/-! ## The two tables -/

/-- The ratio of one Q16.16 cent step (R12). -/
noncomputable def centRatio : ℝ := 2 ^ ((1 : ℝ) / octave)

/-- The amplitude of one Q16.16 centibel step down (R13). -/
noncomputable def centibelRatio : ℝ := 10 ^ (-(1 : ℝ) / decade)

theorem centRatio_pos : 0 < centRatio := Real.rpow_pos_of_pos (by norm_num) _

theorem centibelRatio_pos : 0 < centibelRatio := Real.rpow_pos_of_pos (by norm_num) _

/-- A number of steps is that power of the ratio. -/
theorem centRatio_pow (k : Nat) : centRatio ^ k = 2 ^ ((k : ℝ) / octave) := by
  rw [centRatio, ← Real.rpow_natCast, ← Real.rpow_mul (by norm_num), one_div_mul_eq_div]

theorem centibelRatio_pow (m : Nat) : centibelRatio ^ m = 10 ^ (-(m : ℝ) / decade) := by
  rw [centibelRatio, ← Real.rpow_natCast, ← Real.rpow_mul (by norm_num), div_mul_eq_mul_div, neg_one_mul]

/-- An octave doubles. -/
theorem centRatio_pow_octave : centRatio ^ octave = 2 := by
  rw [centRatio_pow, div_self (by norm_num [octave]), Real.rpow_one]

/-- A decade down divides by ten. -/
theorem centibelRatio_pow_decade : centibelRatio ^ decade * 10 = 1 := by
  rw [centibelRatio_pow, neg_div, div_self (by norm_num [decade]), Real.rpow_neg_one]
  norm_num

/-- The square above the table of `Exp2C`, 2^(128/75), to one unit of `guardScale`. -/
def exp2Anchor : Nat := 4770426023585386568529914299619207169599898396930

/-- The square above the table of `CbToAmp`, 10^(−128/25), to one unit of `guardScale`. -/
def cbAnchor : Nat := 11086623679476579340684911408737225962946881

theorem exp2Anchor_bounds :
    (exp2Anchor : ℝ) ≤ centRatio ^ 2 ^ 27 * guardScale ∧ centRatio ^ 2 ^ 27 * guardScale ≤ (exp2Anchor + 1 : Nat) := by
  refine root_bounds (n := 75) (c := 2 ^ 128) (d := 1) (pow_nonneg centRatio_pos.le _) (by decide) (by decide) ?_
    (by decide +kernel) (by decide +kernel)
  rw [← pow_mul, show 2 ^ 27 * 75 = octave * 128 from rfl, pow_mul, centRatio_pow_octave, Nat.cast_one, mul_one,
    Nat.cast_pow, Nat.cast_ofNat]

theorem cbAnchor_bounds :
    (cbAnchor : ℝ) ≤ centibelRatio ^ 2 ^ 26 * guardScale ∧
      centibelRatio ^ 2 ^ 26 * guardScale ≤ (cbAnchor + 1 : Nat) := by
  refine root_bounds (n := 25) (c := 1) (d := 10 ^ 128) (pow_nonneg centibelRatio_pos.le _) (by decide)
    (Nat.pow_pos (by decide)) ?_ (by decide +kernel) (by decide +kernel)
  rw [← pow_mul, show 2 ^ 26 * 25 = decade * 128 from rfl, pow_mul, Nat.cast_pow, Nat.cast_ofNat, ← mul_pow,
    centibelRatio_pow_decade, one_pow, Nat.cast_one]

theorem exp2Factors_tablesSquares : TablesSquares centRatio exp2Factors := by
  have hroots : rootsSettle exp2Factors.reverse exp2Anchor (exp2Anchor + 1) = true := by decide +kernel
  have h := tablesSquares_of_rootsSettle (gs := exp2Factors.reverse) (fs := []) centRatio_pos.le exp2Anchor_bounds.1
    exp2Anchor_bounds.2 trivial hroots
  rwa [List.append_nil, List.reverse_reverse] at h

theorem cbFactors_tablesSquares : TablesSquares centibelRatio cbFactors := by
  have hroots : rootsSettle cbFactors.reverse cbAnchor (cbAnchor + 1) = true := by decide +kernel
  have h := tablesSquares_of_rootsSettle (gs := cbFactors.reverse) (fs := []) centibelRatio_pos.le cbAnchor_bounds.1
    cbAnchor_bounds.2 trivial hroots
  rwa [List.append_nil, List.reverse_reverse] at h

end Sys2Proof.Machine
end

section
/-! `Exp2C` and `CbToAmp` are the floors of the real powers (R12, R13): the products of factors bound the power on both
sides, and where the two floors differ the downward search finds it by the exact test. -/

namespace Sys2Proof.Machine

/-! ## The product of the selected factors -/

/-- Dropping the scale from a lower bound rounds it down. -/
theorem cast_div_romScale_le {n : Nat} {t : ℝ} (h : (n : ℝ) ≤ t * romScale) : ((n / romScale : Nat) : ℝ) ≤ t :=
  Nat.cast_div_le.trans ((div_le_iff₀ romScale_pos).mpr h)

/-- Dropping the scale from an upper bound loses less than one. -/
theorem lt_cast_div_romScale {n : Nat} {t : ℝ} (h : t * romScale ≤ n) : t < ((n / romScale : Nat) : ℝ) + 1 := by
  have hdiv : n < (n / romScale + 1) * romScale := by
    rw [mul_comm]; exact Nat.lt_mul_div_succ n (Nat.two_pow_pos 96)
  refine lt_of_mul_lt_mul_right (h.trans_lt ?_) romScale_pos.le
  exact_mod_cast hdiv

/-- One selected factor keeps the bounds. -/
theorem factor_step_bounds {x V : ℝ} {a l u : Nat} (hx : 0 ≤ x) (ha : (a : ℝ) ≤ x * romScale)
    (ha' : x * romScale ≤ (a : ℝ) + 1) (hl : (l : ℝ) ≤ V) (hu : V ≤ u) :
    ((l * a / romScale : Nat) : ℝ) ≤ V * x ∧ V * x ≤ (u * (a + 1) / romScale + 1 : Nat) := by
  have hlow : ((l * a : Nat) : ℝ) ≤ V * x * romScale := by
    rw [Nat.cast_mul, mul_assoc]
    exact mul_le_mul hl ha (Nat.cast_nonneg _) ((Nat.cast_nonneg l).trans hl)
  have hup : V * x * romScale ≤ (u * (a + 1) : Nat) := by
    rw [Nat.cast_mul, Nat.cast_succ, mul_assoc]
    exact mul_le_mul hu ha' (mul_nonneg hx romScale_pos.le) (Nat.cast_nonneg _)
  exact ⟨cast_div_romScale_le hlow, by rw [Nat.cast_succ]; exact (lt_cast_div_romScale hup).le⟩

/-- The product of the factors that the digits of `r` select bounds the power `r` of the base. -/
theorem romProduct_bounds {x V : ℝ} {fs : List Nat} {r l u : Nat} (hx : 0 ≤ x) (hfs : TablesSquares x fs)
    (hr : r < 2 ^ fs.length) (hl : (l : ℝ) ≤ V) (hu : V ≤ u) :
    ((romProduct fs r l u).1 : ℝ) ≤ V * x ^ r ∧ V * x ^ r ≤ (romProduct fs r l u).2 := by
  induction fs generalizing x V r l u with
  | nil =>
    obtain rfl : r = 0 := by simpa using hr
    simpa [romProduct] using ⟨hl, hu⟩
  | cons a as ih =>
    obtain ⟨⟨ha, ha'⟩, has⟩ := hfs
    have hr2 : r / 2 < 2 ^ as.length := by rw [List.length_cons, pow_succ] at hr; omega
    unfold romProduct
    split
    case isTrue hodd =>
      have hsplit : V * x ^ r = V * x * (x ^ 2) ^ (r / 2) := by
        rw [← pow_mul, mul_assoc, ← pow_succ', show 2 * (r / 2) + 1 = r by omega]
      obtain ⟨hl', hu'⟩ := factor_step_bounds hx ha ha' hl hu
      rw [hsplit]
      exact ih (sq_nonneg x) has hr2 hl' hu'
    case isFalse heven =>
      have hsplit : V * x ^ r = V * (x ^ 2) ^ (r / 2) := by
        rw [← pow_mul, show 2 * (r / 2) = r by omega]
      rw [hsplit]
      exact ih (sq_nonneg x) has hr2 hl hu

/-- The whole numbers of the two bounds, brought to scale `c`, are a floor below the power and a floor not below its own. -/
theorem romProduct_floors {x : ℝ} {fs : List Nat} {r : Nat} (c : Nat) (hx : 0 ≤ x) (hfs : TablesSquares x fs)
    (hr : r < 2 ^ fs.length) :
    (((romProduct fs r romScale romScale).1 * c / romScale : Nat) : ℝ) ≤ c * x ^ r ∧
      c * x ^ r < ((romProduct fs r romScale romScale).2 * c / romScale : Nat) + 1 := by
  obtain ⟨hl, hu⟩ := romProduct_bounds hx hfs hr (le_refl (romScale : ℝ)) le_rfl
  have hscale : c * x ^ r * romScale = romScale * x ^ r * c := by ring
  have hc : (0 : ℝ) ≤ c := Nat.cast_nonneg c
  refine ⟨cast_div_romScale_le ?_, lt_cast_div_romScale ?_⟩ <;> rw [hscale, Nat.cast_mul]
  · exact mul_le_mul_of_nonneg_right hl hc
  · exact mul_le_mul_of_nonneg_right hu hc

/-! ## The value: a floor -/

/-- Where the two whole numbers agree they are the floor; where they differ, the search by the exact test finds it. -/
theorem search_eq_floor {v : ℝ} {lo hi : Nat} {test : Nat → Bool} (hlo : (lo : ℝ) ≤ v) (hhi : v < (hi : ℝ) + 1)
    (htest : ∀ y, test y = true ↔ (y : ℝ) ≤ v) : (if lo = hi then lo else greatestDown test hi) = ⌊v⌋₊ := by
  have hv : 0 ≤ v := (Nat.cast_nonneg lo).trans hlo
  split
  case isTrue heq => exact ((Nat.floor_eq_iff hv).mpr ⟨hlo, heq ▸ hhi⟩).symm
  case isFalse =>
    refine le_antisymm (Nat.le_floor ?_) (le_greatestDown ?_ ((htest _).mpr (Nat.floor_le hv)))
    · rcases greatestDown_passes test hi with hzero | hpass
      · simpa [hzero] using hv
      · exact (htest _).mp hpass
    · exact Nat.lt_succ_iff.mp ((Nat.floor_lt hv).mpr (by exact_mod_cast hhi))

/-- The exact test of `Exp2C`, read on the reals. -/
theorem exp2Le_iff (k y : Nat) : exp2Le k y = true ↔ (y : ℝ) ≤ 8 * centRatio ^ k := by
  have hv : 0 ≤ 8 * centRatio ^ k := mul_nonneg (by norm_num) (pow_nonneg centRatio_pos.le _)
  have hpow : (8 * centRatio ^ k) ^ octave = (2 ^ (3 * octave + k) : Nat) := by
    rw [mul_pow, ← pow_mul, mul_comm k, pow_mul, centRatio_pow_octave, Nat.cast_pow, Nat.cast_ofNat, pow_add, pow_mul,
      show (2 : ℝ) ^ 3 = 8 by norm_num]
  rw [exp2Le, decide_eq_true_iff, ← pow_le_pow_iff_left₀ (Nat.cast_nonneg y) hv (by decide : octave ≠ 0), hpow,
    ← Nat.cast_pow, Nat.cast_le]

/-- The exact test of `CbToAmp`, read on the reals. -/
theorem cbLe_iff (m y : Nat) : cbLe m y = true ↔ (y : ℝ) ≤ 32768 * centibelRatio ^ m := by
  have hv : 0 ≤ 32768 * centibelRatio ^ m := mul_nonneg (by norm_num) (pow_nonneg centibelRatio_pos.le _)
  have hpow : (32768 * centibelRatio ^ m) ^ decade * (10 ^ m : Nat) = (32768 ^ decade : Nat) := by
    rw [mul_pow, ← pow_mul, mul_comm m, pow_mul, mul_assoc, Nat.cast_pow, Nat.cast_ofNat, ← mul_pow,
      centibelRatio_pow_decade, one_pow, mul_one, Nat.cast_pow, Nat.cast_ofNat]
  have hten : (0 : ℝ) < (10 ^ m : Nat) := Nat.cast_pos.mpr (Nat.pow_pos (by decide))
  rw [cbLe, decide_eq_true_iff, ← pow_le_pow_iff_left₀ (Nat.cast_nonneg y) hv (by decide : decade ≠ 0),
    ← mul_le_mul_iff_of_pos_right hten, hpow, ← Nat.cast_pow, ← Nat.cast_mul, Nat.cast_le]

/-- `Exp2C` above `C_MIN` is the floor of the real power, a number of octaves and a rest (R12). -/
theorem exp2Above_eq_floor (k : Nat) : exp2Above k = ⌊8 * centRatio ^ k⌋₊ := by
  have hr : k % octave < 2 ^ exp2Factors.length := (Nat.mod_lt k (by decide)).trans (by decide)
  have hv : ((2 ^ (k / octave + 3) : Nat) : ℝ) * centRatio ^ (k % octave) = 8 * centRatio ^ k := by
    conv_rhs => rw [← Nat.div_add_mod k octave, pow_add, pow_mul, centRatio_pow_octave]
    rw [Nat.cast_pow, Nat.cast_ofNat, pow_add, ← mul_assoc, mul_comm (8 : ℝ), show (2 : ℝ) ^ 3 = 8 by norm_num]
  obtain ⟨hlo, hhi⟩ := romProduct_floors (2 ^ (k / octave + 3)) centRatio_pos.le exp2Factors_tablesSquares hr
  rw [hv] at hlo hhi
  exact search_eq_floor hlo hhi (exp2Le_iff k)

/-- `CbToAmp` below 0 cB is the floor of the real power (R13). -/
theorem cbBelow_eq_floor {m : Nat} (hm : m < 2 ^ cbFactors.length) : cbBelow m = ⌊32768 * centibelRatio ^ m⌋₊ := by
  obtain ⟨hlo, hhi⟩ := romProduct_floors 32768 centibelRatio_pos.le cbFactors_tablesSquares hm
  exact search_eq_floor (by exact_mod_cast hlo) (by exact_mod_cast hhi) (cbLe_iff m)

/-! ## The arguments of the two functions -/

/-- `C_MIN` is twelve octaves down, so the real power is 8 times a power of the cent ratio (R12). -/
theorem centRatio_pow_eq {c : Int} (hc : cMin ≤ c) :
    8 * centRatio ^ (c - cMin).toNat = (32768 : ℝ) * (2 : ℝ) ^ ((c : ℝ) / 78643200) := by
  have hcast : ((c - cMin).toNat : ℝ) = c + 943718400 := by
    have h : ((c - cMin).toNat : Int) = c + 943718400 := by rw [Int.toNat_of_nonneg (by omega)]; unfold cMin; omega
    exact_mod_cast h
  have hexp : ((c : ℝ) + 943718400) / octave = (c : ℝ) / 78643200 + 12 := by norm_num [octave]; ring
  rw [centRatio_pow, hcast, hexp, Real.rpow_add (by norm_num)]
  norm_num; ring

/-- Below 0 cB the real power is a power of the centibel ratio (R13). -/
theorem centibelRatio_pow_eq {c : Int} (hc : c < 0) :
    32768 * centibelRatio ^ (-c).toNat = (32768 : ℝ) * (10 : ℝ) ^ ((c : ℝ) / 13107200) := by
  have hcast : ((-c).toNat : ℝ) = -c := by
    have h : ((-c).toNat : Int) = -c := Int.toNat_of_nonneg (by omega)
    exact_mod_cast h
  rw [centibelRatio_pow, hcast, neg_neg, show (decade : ℝ) = 13107200 by norm_num [decade]]

theorem cbToAmp_of_nonneg {c : Int} (h : 0 ≤ c) : cbToAmp c = one := if_pos h

theorem cbToAmp_of_le_floor {c : Int} (h : c ≤ cbFloor) : cbToAmp c = 0 := by
  have hneg : ¬ 0 ≤ c := by unfold cbFloor at h; omega
  rw [cbToAmp, if_neg hneg, if_pos h]

theorem cbToAmp_of_between {c : Int} (hlo : cbFloor < c) (hhi : c < 0) : cbToAmp c = cbBelow (-c).toNat := by
  rw [cbToAmp, if_neg hhi.not_ge, if_neg hlo.not_ge]

/-- Settles O47: the real power is 8 times the power of the cent ratio that `exp2Above` floors. -/
theorem centsToRatioIsTheFloor : Obligations.CentsToRatioIsTheFloor := by
  intro c hmin _
  have hv : 0 ≤ 8 * centRatio ^ (c - cMin).toNat := mul_nonneg (by norm_num) (pow_nonneg centRatio_pos.le _)
  rw [← centRatio_pow_eq hmin, exp2C, exp2Above_eq_floor, Int.natCast_floor_eq_floor hv]

/-- Settles O48: the two constants by definition, and between them the power of the centibel ratio that `cbBelow` floors. -/
theorem centibelsToAmplitudeIsTheFloor : Obligations.CentibelsToAmplitudeIsTheFloor := by
  intro c
  refine ⟨cbToAmp_of_nonneg, cbToAmp_of_le_floor, fun hlo hhi => ?_⟩
  have hv : 0 ≤ 32768 * centibelRatio ^ (-c).toNat := mul_nonneg (by norm_num) (pow_nonneg centibelRatio_pos.le _)
  have hm : (-c).toNat < 2 ^ cbFactors.length := by
    have hlen : cbFactors.length = 26 := rfl
    rw [hlen]; omega
  rw [← centibelRatio_pow_eq hhi, cbToAmp_of_between hlo hhi, cbBelow_eq_floor hm, Int.natCast_floor_eq_floor hv]

end Sys2Proof.Machine
end

section
/-! The registers stay in their ranges: the master registers and the error words, the registers of a voice, the delay
buses, each a property of its own that every effect of a step keeps (R23, R27 to R30, R41 to R43, R46, R330). -/

namespace Sys2Proof.Machine
open Safety

-- One theorem at a time: each further thread would reserve a gigabyte of the check's memory.
set_option Elab.async false

/-! ## Master registers, counters and error words -/

/-- A bit that is implemented may be raised. -/
theorem registersInRange_raiseAll {s : State} {bits : BitVec 16} (h : RegistersInRange s)
    (hb : bits &&& ~~~0x033F#16 = 0) : RegistersInRange (s.raiseAll bits) := by
  obtain ⟨hvol, hbal, hfine, hcoarse, hl, hr, hsil, hptr, herr, hien⟩ := h
  refine ⟨hvol, hbal, hfine, hcoarse, hl, hr, hsil, hptr, ?_, hien⟩
  rw [State.raiseAll_err, BitVec.and_or_distrib_right, herr, hb]; exact BitVec.or_zero

/-- Promoting one slot raises implemented bits only (R187). -/
theorem promoteErr_implemented (s : State) (v : Voice) : promoteErr s v &&& ~~~0x033F#16 = 0 := by
  unfold promoteErr
  split
  · split
    · exact ErrBit.maskIf_implemented ..
    · exact ErrBit.mask_implemented _
  · exact BitVec.zero_and

theorem orAll_map_implemented {f : Voice → BitVec 16} (hf : ∀ v, f v &&& ~~~0x033F#16 = 0) (vs : List Voice) :
    orAll (vs.map f) &&& ~~~0x033F#16 = 0 :=
  and_orAll fun b hb => by obtain ⟨v, -, rfl⟩ := List.mem_map.mp hb; exact hf v

/-- `SILCNT` counts to five and no further (R335). -/
theorem silUp_le (c : BitVec 3) : (silUp c).toNat ≤ 5 := by revert c; decide

theorem registersInRange_tickOutput {s : State} (h : RegistersInRange s) : RegistersInRange (tickOutput s) := by
  obtain ⟨c, heq, -⟩ := tickOutput_eq s
  obtain ⟨hvol, hbal, hfine, hcoarse, -, -, -, hptr, herr, hien⟩ :=
    registersInRange_raiseAll h (ErrBit.idle.maskIf_implemented c)
  rw [heq]
  refine ⟨hvol, hbal, hfine, hcoarse, ofNat16_le (State.masterL_le hvol), ofNat16_le (State.masterR_le hvol), ?_, hptr,
    herr, hien⟩
  show (if allSilent s.outL s.outR && !s.cmdseen then silUp s.silcnt else 0).toNat ≤ 5
  split
  · exact silUp_le _
  · decide

theorem registersInRange_keepsTick : KeepsTick RegistersInRange where
  delayIn _ h := h
  count _ h := h
  off _ _ h := h
  fired _ h := registersInRange_raiseAll h ErrBit.wdog.mask_implemented
  promote s h := registersInRange_raiseAll h (orAll_map_implemented (promoteErr_implemented s) s.voices)
  control s h :=
    registersInRange_raiseAll h (orAll_map_implemented (fun _ => ErrBit.maskIf_implemented ..) s.voices)
  fxCtl _ h := h
  audio s h := by
    obtain ⟨c, herr⟩ := audioVoices_err s s.voices s.buses s.err s.freeCtr
    have hraised := registersInRange_raiseAll h (ErrBit.vdone.maskIf_implemented c)
    rw [State.raiseAll, ← herr] at hraised
    exact hraised
  fold _ h := h
  fxAud _ h := h
  output _ h := registersInRange_tickOutput h

theorem registersInRange_setMaster {s : State} (h : RegistersInRange s) (n : Nat) {x : BitVec 16} (hx : x.toNat ≤ 32768) :
    RegistersInRange (s.setMaster n x) := by
  obtain ⟨hvol, hbal, hfine, hcoarse, hrest⟩ := h
  unfold State.setMaster
  split
  · exact ⟨hx, hbal, hfine, hcoarse, hrest⟩
  · exact ⟨hvol, hx, hfine, hcoarse, hrest⟩
  · exact ⟨hvol, hbal, hx, hcoarse, hrest⟩
  · exact ⟨hvol, hbal, hfine, hx, hrest⟩

theorem registersInRange_init (cfg : Config) : RegistersInRange (State.init cfg) := by
  simp [RegistersInRange, State.init]

/-- A word masked with the implemented bits has no other (R27). -/
theorem and_errMask_implemented (x : BitVec 16) : x &&& errMask &&& ~~~0x033F#16 = 0 := by
  rw [BitVec.and_assoc, show errMask &&& ~~~0x033F#16 = 0 by decide]; exact BitVec.and_zero

theorem registersInRange_keeps : Keeps RegistersInRange where
  pop _ _ h := h
  mark _ h := h
  raise _ b h := registersInRange_raiseAll h b.mask_implemented
  respond _ _ h := h
  opens s h _ := by
    obtain ⟨hvol, hbal, hfine, hcoarse, hl, hr, -, hrest⟩ := h
    exact ⟨hvol, hbal, hfine, hcoarse, hl, hr, Nat.zero_le _, hrest⟩
  closes s h := by
    obtain ⟨-, -, -, -, -, -, -, hptr, herr, hien⟩ := h
    obtain ⟨hvol, hbal, hfine, hcoarse, hl, hr, hsil, -⟩ := registersInRange_init s.cfg
    exact ⟨hvol, hbal, hfine, hcoarse, hl, hr, hsil, hptr, herr, hien⟩
  resets s _ := registersInRange_init s.cfg
  master _ n d h := registersInRange_setMaster h n (saturated_le d)
  asense _ _ h := h
  errclr s d h := by
    obtain ⟨hvol, hbal, hfine, hcoarse, hl, hr, hsil, hptr, -, hien⟩ := h
    exact ⟨hvol, hbal, hfine, hcoarse, hl, hr, hsil, hptr, and_errMask_implemented _, hien⟩
  ienset s d h := by
    obtain ⟨hvol, hbal, hfine, hcoarse, hl, hr, hsil, hptr, herr, -⟩ := h
    exact ⟨hvol, hbal, hfine, hcoarse, hl, hr, hsil, hptr, herr, and_errMask_implemented _⟩
  chan _ _ _ h _ _ := h
  voices _ _ h _ _ := h
  voice _ _ _ h _ _ := h
  wptr s a h ha := by
    obtain ⟨hvol, hbal, hfine, hcoarse, hl, hr, hsil, -, herr, hien⟩ := h
    have hptr : (a.setWidth 33).toNat = a.toNat := BitVec.toNat_setWidth_of_le (by omega)
    exact ⟨hvol, hbal, hfine, hcoarse, hl, hr, hsil, hptr.trans_le ha.le, herr, hien⟩
  wwr s x h hlt := by
    obtain ⟨hvol, hbal, hfine, hcoarse, hl, hr, hsil, -, herr, hien⟩ := h
    have hptr : (s.wptr + 1).toNat ≤ s.wptr.toNat + 1 := by
      rw [BitVec.toNat_add]; exact Nat.mod_le _ _
    exact ⟨hvol, hbal, hfine, hcoarse, hl, hr, hsil, hptr.trans hlt, herr, hien⟩
  wtwr _ _ _ _ h _ _ := h
  cbwr _ _ _ _ h _ _ := h
  lrwr _ _ _ h := h
  idle _ h _ _ _ := h
  ticks _ h _ _ _ := registersInRange_keepsTick.tick h
  pull _ h _ _ := h

/-! ## The registers of a voice -/

/-- What a command leaves of a voice unless it starts a new one: all but the queued record, the key, the flags, the
pressure, the glide and the loop (R180). -/
theorem VoiceEdit.frame {s : State} {v w : Voice} (h : VoiceEdit s v w) :
    (v.act = false ∧ w = initVoice s s.lr) ∨
      w = { v with
        pend := w.pend, ident := w.ident, flags := w.flags, pp := w.pp, gofs := w.gofs, grate := w.grate, pos := w.pos } := by
  cases h with
  | off c m =>
    right; unfold Voice.channelOff Voice.offVoice Voice.dropPend
    split_ifs <;> rfl
  | rel c m0 m1 =>
    right; unfold Voice.channelRelease
    dsimp only
    split_ifs <;> rfl
  | note mode =>
    right; unfold Voice.noteOff
    split
    · split <;> rfl
    · rfl
  | sil h => exact .inr rfl
  | cancel => exact .inr rfl
  | glide r => right; unfold Voice.glideTo; split <;> rfl
  | press x => exact .inr rfl
  | same => exact .inr rfl
  | take h hp hv => exact .inr rfl
  | init h hp hv => exact .inl ⟨h, rfl⟩

theorem voiceInRange_reset : VoiceInRange Voice.reset := by decide

/-- A started voice has the registers of a reset one, at full shutdown gain (R185). -/
theorem voiceInRange_initVoice (s : State) (r : LaunchRec) : VoiceInRange (initVoice s r) := by
  obtain ⟨heg0, heg1, hlfo0, hlfo1, -, haudio⟩ := voiceInRange_reset
  unfold initVoice VoiceInRange
  simp only [Voice.startLfos_eg0, Voice.startLfos_eg1, Voice.startLfos_lfo0, Voice.startLfos_lfo1, Voice.startLfos_shut,
    Voice.startLfos_audio, evalTick_eg0, evalTick_eg1, evalTick_lfo0, evalTick_lfo1, evalTick_shut, evalTick_audio,
    evalInit_eg0, evalInit_eg1, evalInit_lfo0, evalInit_lfo1, evalInit_shut, evalInit_audio]
  exact ⟨heg0, heg1, hlfo0, hlfo1, Nat.le_refl _, haudio⟩

/-- The gates do not lead into IDLE (R244). -/
theorem egGate_eq_idle {st : EgStage} {gate : Bool} (h : egGate st gate = .idle) : st = .idle := by
  cases st <;> cases gate <;> simp_all [egGate]

/-- The gates do not lead into DONE (R244). -/
theorem egGate_eq_done {st : EgStage} {gate : Bool} (h : egGate st gate = .done) : st = .done := by
  cases st <;> cases gate <;> simp_all [egGate]

/-- A generator stays at level 0 in IDLE, and comes to DONE at level 0 only (R249). -/
theorem egStepStage_inRange {st : EgStage} {level : BitVec 16} {a d sl r : Nat} (hl : level.toNat ≤ 32768) (hs : sl ≤ 32768)
    (hidle : st = .idle → level = 0) (hdone : st = .done → level = 0) :
    EgInRange (egStepStage st level.toNat a d sl r) := by
  refine ⟨egStepStage_level hl hs, ?_, ?_⟩ <;> cases st <;> simp only [egStepStage] at *
  case refine_1.idle => simpa using hidle
  case refine_2.done => simpa using hdone
  case refine_2.release =>
    intro h
    split at h
    · rename_i h0; simp [h0]
    · cases h
  all_goals (try split) <;> intro h <;> cases h

theorem egAdvance_inRange {e : Eg} (h : EgInRange e) (dOn dAttack dDecay dSustain dRelease : Int) :
    EgInRange (egAdvance e dOn dAttack dDecay dSustain dRelease) := by
  obtain ⟨hl, hidle, hdone⟩ := h
  exact egStepStage_inRange hl (levelOf_le _) (fun hg => hidle (egGate_eq_idle hg)) fun hg => hdone (egGate_eq_done hg)

/-! The stages of the control logic, one by one (R310 to R319). -/

theorem voiceInRange_evalTick {v : Voice} (h : VoiceInRange v) (s : State) : VoiceInRange (evalTick s v) := by
  simpa only [VoiceInRange, evalTick_eg0, evalTick_eg1, evalTick_lfo0, evalTick_lfo1, evalTick_shut, evalTick_audio] using h

theorem voiceInRange_stepLfos {v : Voice} (h : VoiceInRange v) (cfg : Config) : VoiceInRange (v.stepLfos cfg) := by
  obtain ⟨heg0, heg1, -, -, hrest⟩ := h
  exact ⟨heg0, heg1, lfoAdvance_out_le .., lfoAdvance_out_le .., hrest⟩

theorem voiceInRange_stepEgs {v : Voice} (h : VoiceInRange v) : VoiceInRange v.stepEgs := by
  obtain ⟨heg0, heg1, hrest⟩ := h
  exact ⟨egAdvance_inRange heg0 .., egAdvance_inRange heg1 .., hrest⟩

theorem voiceInRange_stepShut {v : Voice} (h : VoiceInRange v) (cfg : Config) : VoiceInRange (v.stepShut cfg) := by
  obtain ⟨heg0, heg1, hlfo0, hlfo1, hshut, haudio⟩ := h
  unfold Voice.stepShut
  split
  · exact ⟨heg0, heg1, hlfo0, hlfo1, ofNat16_le ((Nat.sub_le ..).trans hshut), haudio⟩
  · exact ⟨heg0, heg1, hlfo0, hlfo1, hshut, haudio⟩

theorem voiceInRange_setAudio {v : Voice} (h : VoiceInRange v) (cfg : Config) : VoiceInRange (v.setAudio cfg) := by
  obtain ⟨heg0, heg1, hlfo0, hlfo1, hshut, -, hamp, -, -, -, -, -, hstep⟩ := h
  refine ⟨heg0, heg1, hlfo0, hlfo1, hshut, ofNat16_le (Voice.amplitude_le hshut), hamp, ofNat16_le (gainL_le ..),
    ofNat16_le (gainR_le ..), ofNat16_le (levelOf_le _), ofNat16_le (levelOf_le _), ?_, hstep⟩
  rw [Voice.setAudio_tnew, BitVec.toNat_ofNat]
  exact (Nat.mod_le ..).trans_lt (stepOf_lt ..)

/-- The targets may become the previous ones, in a first tick and at the end of every one (R319, R325). -/
theorem voiceInRange_settle {v : Voice} (h : VoiceInRange v) :
    VoiceInRange { v with audio := { v.audio with told := v.audio.tnew, aold := v.audio.anew } } := by
  obtain ⟨heg0, heg1, hlfo0, hlfo1, hshut, hamp, -, hgl, hgr, hrv, hch, hstep, -⟩ := h
  exact ⟨heg0, heg1, hlfo0, hlfo1, hshut, hamp, hamp, hgl, hgr, hrv, hch, hstep, hstep⟩

theorem voiceInRange_firstTick {v : Voice} (h : VoiceInRange v) : VoiceInRange v.firstTick := by
  unfold Voice.firstTick
  split
  · exact voiceInRange_settle h
  · exact h

theorem voiceInRange_controlLogic {v : Voice} (h : VoiceInRange v) (s : State) : VoiceInRange (controlLogic s v) :=
  have hgraph : VoiceInRange (evalTick s v.glide) := voiceInRange_evalTick h s
  have hgenerators := voiceInRange_stepShut (voiceInRange_stepEgs (voiceInRange_stepLfos hgraph s.cfg)) s.cfg
  voiceInRange_firstTick (voiceInRange_setAudio (v := Voice.markFinal _) hgenerators s.cfg)

theorem voiceInRange_keepsVoice : KeepsVoice fun _ => VoiceInRange where
  reset _ := voiceInRange_reset
  edit s v w he h := by
    rcases he.frame with ⟨-, rfl⟩ | heq
    · exact voiceInRange_initVoice s s.lr
    · rw [heq]; exact h
  promote s v h := by
    unfold promoteVoice
    split
    · split
      · exact voiceInRange_initVoice s _
      · exact h
    · exact h
  control s v _ h := voiceInRange_controlLogic h s
  finish s v ctr _ h := by
    rw [Voice.finish_eq]
    exact voiceInRange_settle h
  rewrite _ v a old h := by
    rw [← Voice.noteRewrite_frame v a old] at h
    exact h

/-! ## The delay buses -/

/-- A state whose five delay buses are clear meets R330's bound. -/
theorem delaysBounded_of_zero {s : State} {n : Nat} (hl : s.buses.dl = zeroBus n) (hr : s.buses.dr = zeroBus n)
    (hm : s.buses.dm = zeroBus n) (he1 : s.buses.de1 = zeroBus n) (he2 : s.buses.de2 = zeroBus n) : DelaysBounded s := by
  intro x hx
  rw [hl, hr, hm, he1, he2] at hx
  obtain ⟨-, rfl⟩ : n ≠ 0 ∧ x = 0 := by simpa [zeroBus] using hx
  decide

/-- An element that the effect unit's contract let through is within R330's bound. -/
theorem bounds_of_mem_map_clampDelay {x : BitVec 32} {bus : List (BitVec 32)} (h : x ∈ bus.map clampDelay) :
    -268435456 ≤ x.toInt ∧ x.toInt ≤ 268435456 := by
  obtain ⟨y, -, rfl⟩ := List.mem_map.mp h
  exact clampDelay_bounds y

theorem delaysBounded_fxAudio (s : State) : DelaysBounded (fxAudio s) := by
  intro x hx
  simp only [List.mem_append] at hx
  rcases hx with (((hx | hx) | hx) | hx) | hx <;> exact bounds_of_mem_map_clampDelay hx

/-- Voices add to the live buses only (R322, R323). -/
theorem audioVoices_delays (s : State) (vs : List Voice) (b : Buses) (e : BitVec 16) (ctr : Nat) :
    let b' := (audioVoices s vs b e ctr).buses
    b'.dl = b.dl ∧ b'.dr = b.dr ∧ b'.dm = b.dm ∧ b'.de1 = b.de1 ∧ b'.de2 = b.de2 := by
  induction vs generalizing b e ctr with
  | nil => exact ⟨rfl, rfl, rfl, rfl, rfl⟩
  | cons v vs ih =>
    unfold audioVoices
    split
    · exact ih ..
    · exact ih ..

theorem delaysBounded_keepsTick : KeepsTick DelaysBounded where
  delayIn s _ := delaysBounded_of_zero (n := s.cfg.chunk) rfl rfl rfl rfl rfl
  count _ h := h
  off _ _ h := h
  fired _ h := h
  promote _ h := h
  control _ h := h
  fxCtl _ h := h
  audio s h := by
    obtain ⟨hl, hr, hm, he1, he2⟩ := audioVoices_delays s s.voices s.buses s.err s.freeCtr
    rw [DelaysBounded, ← hl, ← hr, ← hm, ← he1, ← he2] at h
    exact h
  fold _ h := h
  fxAud s _ := delaysBounded_fxAudio s
  output s h := by
    obtain ⟨c, heq, -⟩ := tickOutput_eq s
    rw [heq]
    exact h

theorem delaysBounded_init (cfg : Config) : DelaysBounded (State.init cfg) :=
  delaysBounded_of_zero (n := cfg.chunk) rfl rfl rfl rfl rfl

theorem delaysBounded_keeps : Keeps DelaysBounded where
  pop _ _ h := h
  mark _ h := h
  raise _ _ h := h
  respond _ _ h := h
  opens _ h _ := h
  closes s _ := delaysBounded_init s.cfg
  resets s _ := delaysBounded_init s.cfg
  master _ n _ h := by unfold State.setMaster; split <;> exact h
  asense _ _ h := h
  errclr _ _ h := h
  ienset _ _ h := h
  chan _ _ _ h _ _ := h
  voices _ _ h _ _ := h
  voice _ _ _ h _ _ := h
  wptr _ _ h _ := h
  wwr _ _ h _ := h
  wtwr _ _ _ _ h _ _ := h
  cbwr _ _ _ _ h _ _ := h
  lrwr _ _ _ h := h
  idle _ h _ _ _ := h
  ticks _ h _ _ _ := delaysBounded_keepsTick.tick h
  pull _ h _ _ := h

/-- Settles O56: each of the three ranges is kept by every effect of a step, independently of the other two. -/
theorem registersStayInRange : Obligations.RegistersStayInRange :=
  fun _ _ hregs hvoices hdelays hstep =>
    ⟨registersInRange_keeps.step hregs hstep, voiceInRange_keepsVoice.keeps.step hvoices hstep,
      delaysBounded_keeps.step hdelays hstep⟩

end Sys2Proof.Machine
end

section
/-! The arrays keep their sizes, and `OUTRD` stays an index of the buffer or its end (R20, R34, R47, R48). -/

namespace Sys2Proof.Machine
open Safety

-- One theorem at a time: each further thread would reserve a gigabyte of the check's memory.
set_option Elab.async false

/-! ## The ten buses -/

/-- Each of the ten buses has `n` frames (R47). -/
def Buses.Sized (n : Nat) (b : Buses) : Prop :=
  b.l.length = n ∧ b.r.length = n ∧ b.m.length = n ∧ b.e1.length = n ∧ b.e2.length = n ∧
  b.dl.length = n ∧ b.dr.length = n ∧ b.dm.length = n ∧ b.de1.length = n ∧ b.de2.length = n

theorem zeroBus_length (n : Nat) : (zeroBus n).length = n := List.length_replicate

theorem Buses.sized_zero (n : Nat) : (Buses.zero n).Sized n := by simp [Buses.Sized, Buses.zero, zeroBus]

theorem Buses.Sized.addFrames {n : Nat} {b : Buses} {fs : List FrameAdd} (h : b.Sized n) (hfs : fs.length = n) :
    (b.addFrames fs).Sized n := by
  obtain ⟨hl, hr, hm, he1, he2, hdelays⟩ := h
  have hadd : ∀ (bus : List (BitVec 32)) (g : FrameAdd → Int), bus.length = n → (addToBus bus (fs.map g)).length = n :=
    fun bus g hb => (addToBus_length bus _ (by rw [List.length_map, hfs, hb])).trans hb
  exact ⟨hadd _ _ hl, hadd _ _ hr, hadd _ _ hm, hadd _ _ he1, hadd _ _ he2, hdelays⟩

/-- A voice's chunk is added frame by frame (R320), so step 5 keeps the length of every bus. -/
theorem audioVoices_sized (s : State) (vs : List Voice) {b : Buses} (e : BitVec 16) (ctr : Nat) (h : b.Sized s.cfg.chunk) :
    (audioVoices s vs b e ctr).buses.Sized s.cfg.chunk := by
  induction vs generalizing b e ctr with
  | nil => exact h
  | cons v vs ih =>
    unfold audioVoices
    split
    · exact ih _ _ (h.addFrames (renderFrames_length ..))
    · exact ih _ _ h

theorem audioVoices_length (s : State) (vs : List Voice) (b : Buses) (e : BitVec 16) (ctr : Nat) :
    (audioVoices s vs b e ctr).voices.length = vs.length := (audioVoices_voices s vs b e ctr).length_eq.symm

/-- The arrays of `Shaped`, the buses taken together. -/
theorem shaped_iff (s : State) : Shaped s ↔
    s.voices.length = s.cfg.nv ∧
    (∀ c : Fin 16, s.chans[c].rpn.length = s.cfg.nRpn ∧ s.chans[c].nrpn.length = s.cfg.nNrpn) ∧
    s.buses.Sized s.cfg.chunk ∧ s.outbuf.length = 4 * s.cfg.chunk ∧ s.outrd ≤ 4 * s.cfg.chunk := by
  simp only [Shaped, Buses.Sized, and_assoc]

/-! ## The tick -/

theorem shaped_withVoices {s : State} (h : Shaped s) {vs : List Voice} (hvs : vs.length = s.voices.length) :
    Shaped { s with voices := vs } := by
  obtain ⟨hvoices, hrest⟩ := h
  exact ⟨hvs.trans hvoices, hrest⟩

theorem shaped_withBuses {s : State} (h : Shaped s) {b : Buses} (hb : b.Sized s.cfg.chunk) :
    Shaped { s with buses := b } := by
  obtain ⟨hvoices, hchans, -, hout⟩ := (shaped_iff s).mp h
  exact (shaped_iff _).mpr ⟨hvoices, hchans, hb, hout⟩

theorem sized_of_shaped {s : State} (h : Shaped s) : s.buses.Sized s.cfg.chunk := by
  obtain ⟨-, -, hbuses, -⟩ := (shaped_iff s).mp h
  exact hbuses

theorem delayIn_sized {s : State} (h : s.buses.Sized s.cfg.chunk) : (delayIn s).buses.Sized s.cfg.chunk := by
  obtain ⟨-, -, -, -, -, hdelays⟩ := h
  have hz := zeroBus_length s.cfg.chunk
  obtain ⟨hl, hr, hm, he1, he2⟩ := hdelays
  exact ⟨hl, hr, hm, he1, he2, hz, hz, hz, hz, hz⟩

theorem monoFold_sized {s : State} (h : s.buses.Sized s.cfg.chunk) : (monoFold s).buses.Sized s.cfg.chunk := by
  obtain ⟨hl, hr, hm, hrest⟩ := h
  exact ⟨by simp [monoFold, hl, hm], by simp [monoFold, hr, hm], zeroBus_length _, hrest⟩

/-- R330's contract fits the arrays that the effect unit answers; M, E1 and E2 stay (R332). -/
theorem fxAudio_sized {s : State} (h : s.buses.Sized s.cfg.chunk) : (fxAudio s).buses.Sized s.cfg.chunk := by
  obtain ⟨-, -, hm, he1, he2, -⟩ := h
  have hfit : ∀ xs, (fitBus s.cfg.chunk xs).length = s.cfg.chunk := fitBus_length _
  have hclamp : ∀ xs, ((fitBus s.cfg.chunk xs).map clampDelay).length = s.cfg.chunk :=
    fun xs => List.length_map _ |>.trans (hfit xs)
  exact ⟨hfit _, hfit _, hm, he1, he2, hclamp _, hclamp _, hclamp _, hclamp _, hclamp _⟩

theorem shaped_tickOutput {s : State} (h : Shaped s) : Shaped (tickOutput s) := by
  obtain ⟨c, heq, -⟩ := tickOutput_eq s
  obtain ⟨hvoices, hchans, hbuses, -, -⟩ := (shaped_iff s).mp h
  have hl : s.outL.length = s.cfg.chunk := by simp [State.outL, outSide]
  have hr : s.outR.length = s.cfg.chunk := by simp [State.outR, outSide]
  have hout : (packFrames s.outL s.outR).length = 4 * s.cfg.chunk := by
    rw [packFrames_length _ _ (hl.trans hr.symm), hl]
  rw [heq]
  exact (shaped_iff _).mpr ⟨hvoices, hchans, hbuses, hout, Nat.zero_le _⟩

theorem shaped_keepsTick : KeepsTick Shaped where
  delayIn _ h := shaped_withBuses h (delayIn_sized (sized_of_shaped h))
  count _ h := h
  off _ _ h := shaped_withVoices h (List.length_map _)
  fired _ h := h
  promote _ h := shaped_withVoices h (List.length_map _)
  control _ h := shaped_withVoices h (List.length_map _)
  fxCtl _ h := h
  audio _ h := shaped_withBuses (shaped_withVoices h (audioVoices_length ..)) (audioVoices_sized _ _ _ _ (sized_of_shaped h))
  fold _ h := shaped_withBuses h (monoFold_sized (sized_of_shaped h))
  fxAud _ h := shaped_withBuses h (fxAudio_sized (sized_of_shaped h))
  output _ h := shaped_tickOutput h

/-! ## Every step -/

theorem shaped_init (cfg : Config) : Shaped (State.init cfg) := by
  refine (shaped_iff _).mpr ⟨?_, fun c => ?_, Buses.sized_zero _, ?_, le_rfl⟩
  · simp [State.init]
  · simp [State.init, Channel.reset]
  · simp [State.init, Config.outBytes]

theorem shaped_updChan {s : State} (h : Shaped s) (c : BitVec 4) {f : Channel → Channel}
    (hf : ∀ ch, (f ch).rpn.length = ch.rpn.length ∧ (f ch).nrpn.length = ch.nrpn.length) : Shaped (s.updChan c f) := by
  obtain ⟨hvoices, hchans, hrest⟩ := h
  refine ⟨hvoices, fun d => ?_, hrest⟩
  by_cases hd : c.toFin = d
  · subst hd
    obtain ⟨hrpn, hnrpn⟩ := hf (s.chan c)
    obtain ⟨hrpn', hnrpn'⟩ := hchans c.toFin
    simp only [State.updChan_chans, Fin.getElem_fin, Vector.getElem_set_self, State.updChan_cfg]
    exact ⟨hrpn.trans hrpn', hnrpn.trans hnrpn'⟩
  · have hne : c.toFin.val ≠ d.val := fun e => hd (Fin.ext e)
    simp only [State.updChan_chans, Fin.getElem_fin, Vector.getElem_set_ne _ _ hne, State.updChan_cfg]
    exact hchans d

theorem shaped_keeps : Keeps Shaped where
  pop _ _ h := h
  mark _ h := h
  raise _ _ h := h
  respond _ _ h := h
  opens s h _ := by
    obtain ⟨hvoices, hchans, hbuses, hout, -⟩ := (shaped_iff s).mp h
    exact (shaped_iff _).mpr ⟨hvoices, hchans, hbuses, hout, le_rfl⟩
  closes s _ := shaped_init s.cfg
  resets s _ := shaped_init s.cfg
  master _ n _ h := by unfold State.setMaster; split <;> exact h
  asense _ _ h := h
  errclr _ _ h := h
  ienset _ _ h := h
  chan _ c _ h _ hf := shaped_updChan h c hf
  voices _ _ h _ _ := shaped_withVoices h (List.length_map _)
  voice _ _ _ h _ _ := shaped_withVoices h (List.length_modify ..)
  wptr _ _ h _ := h
  wwr _ _ h _ := shaped_withVoices h (List.length_map _)
  wtwr _ _ _ _ h _ _ := h
  cbwr _ _ _ _ h _ _ := h
  lrwr _ _ _ h := h
  idle s h _ _ _ := by
    obtain ⟨hvoices, hchans, hbuses, -, -⟩ := (shaped_iff s).mp h
    exact (shaped_iff _).mpr ⟨hvoices, hchans, hbuses, List.length_replicate, Nat.zero_le _⟩
  ticks _ h _ _ _ := shaped_keepsTick.tick h
  pull s h _ hlt := by
    obtain ⟨hvoices, hchans, hbuses, hout, -⟩ := (shaped_iff s).mp h
    exact (shaped_iff _).mpr ⟨hvoices, hchans, hbuses, hout, hlt⟩

/-- Settles O58: every effect of a step keeps the sizes. -/
theorem arraysKeepTheirSizes : Obligations.ArraysKeepTheirSizes := fun _ _ h hstep => shaped_keeps.step h hstep

end Sys2Proof.Machine
end

section
/-! The machine idles only while open and after five silent ticks, and a closed machine is quiet (R23, R121, R335, R370,
R382). -/

namespace Sys2Proof.Machine
open Safety

-- One theorem at a time: each further thread would reserve a gigabyte of the check's memory.
set_option Elab.async false

/-! ## Idle only while open -/

theorem idleIsOpen_of_not_idle {s : State} (h : s.idle = false) : IdleIsOpen s :=
  fun hi => absurd (hi.symm.trans h) (by decide)

/-- A tick that ends idle has counted its fifth silent tick (R335). -/
theorem idleIsOpen_tick {s : State} (hr : s.run = true) (hi : s.idle = false) : IdleIsOpen (tick s) := by
  obtain ⟨c, heq, hc⟩ := tickOutput_eq (tickToBuses s)
  intro hidle
  refine ⟨(tick_run s).trans hr, ?_⟩
  rw [tick, heq] at hidle ⊢
  have hfull : c = true := by simpa [hi] using hidle
  obtain ⟨hsilent, hseen, hfive⟩ := hc.mp hfull
  simpa [hsilent, (tickToBuses_cmdseen s).symm.trans hseen] using hfive

theorem idleIsOpen_keeps : Keeps IdleIsOpen where
  pop _ _ h := h
  mark _ _ := idleIsOpen_of_not_idle rfl
  raise _ _ h := h
  respond _ _ h := h
  opens _ _ _ := idleIsOpen_of_not_idle rfl
  closes _ _ := idleIsOpen_of_not_idle rfl
  resets _ _ := idleIsOpen_of_not_idle rfl
  master _ n _ h := by unfold State.setMaster; split <;> exact h
  asense _ _ h := h
  errclr _ _ h := h
  ienset _ _ h := h
  chan _ _ _ h _ _ := h
  voices _ _ h _ _ := h
  voice _ _ _ h _ _ := h
  wptr _ _ h _ := h
  wwr _ _ h _ := h
  wtwr _ _ _ _ h _ _ := h
  cbwr _ _ _ _ h _ _ := h
  lrwr _ _ _ h := h
  idle _ h _ _ _ := h
  ticks _ _ hr hi _ := idleIsOpen_tick hr hi
  pull _ h _ _ := h

/-! ## Quiet while closed -/

/-- Of an open machine `ClosedIsQuiet` says nothing: what only runs while open keeps it. -/
theorem closedIsQuiet_of_open {s : State} (h : s.run = true) : ClosedIsQuiet s :=
  fun hc => absurd (h.symm.trans hc) (by decide)

theorem closedIsQuiet_init (cfg : Config) : ClosedIsQuiet (State.init cfg) := by
  refine fun _ => ⟨rfl, rfl, rfl, rfl, rfl, rfl, rfl, fun c => ?_, fun v hv => List.eq_of_mem_replicate hv, rfl, rfl, rfl⟩
  simp [State.init]

/-- A sample that is stored while the machine is closed is under no live view (R386). -/
theorem closedIsQuiet_storeSample {s : State} (h : ClosedIsQuiet s) (x : BitVec 16) : ClosedIsQuiet (s.storeSample x) := by
  intro hc
  obtain ⟨hidle, hsil, htick, hcount, hl, hr, hfx, hchans, hvoices, hrest⟩ := h hc
  refine ⟨hidle, hsil, htick, hcount, hl, hr, hfx, hchans, fun v hv => ?_, hrest⟩
  obtain ⟨y, hy, rfl⟩ := List.mem_map.mp hv
  rw [hvoices y hy]
  rfl

theorem closedIsQuiet_keeps : Keeps ClosedIsQuiet where
  pop _ _ h := h
  mark s h hc := by
    obtain ⟨-, hsil, htick, -, hrest⟩ := h hc
    exact ⟨rfl, hsil, htick, rfl, hrest⟩
  raise _ _ h := h
  respond _ _ h := h
  opens _ _ _ := closedIsQuiet_of_open rfl
  closes s _ := closedIsQuiet_init s.cfg
  resets s _ := closedIsQuiet_init s.cfg
  master _ n _ h := by unfold State.setMaster; split <;> exact h
  asense _ _ h := h
  errclr _ _ h := h
  ienset _ _ h := h
  chan _ _ _ _ hr _ := closedIsQuiet_of_open hr
  voices _ _ _ hr _ := closedIsQuiet_of_open hr
  voice _ _ _ _ hr _ := closedIsQuiet_of_open hr
  wptr _ _ h _ := h
  wwr _ x h _ := closedIsQuiet_storeSample h x
  wtwr _ _ _ _ h _ _ := h
  cbwr _ _ _ _ h _ _ := h
  lrwr _ _ _ h := h
  idle _ _ hr _ _ := closedIsQuiet_of_open hr
  ticks s _ hr _ _ := closedIsQuiet_of_open ((tick_run s).trans hr)
  pull _ _ hr _ := closedIsQuiet_of_open hr

/-- Settles O59: every effect of a step keeps both. -/
theorem idleAndClosedStayQuiet : Obligations.IdleAndClosedStayQuiet :=
  fun _ _ hidle hquiet hstep => ⟨idleIsOpen_keeps.step hidle hstep, closedIsQuiet_keeps.step hquiet hstep⟩

end Sys2Proof.Machine
end

section
/-! `Reset` and `CLOSE` give the values of R51's table, `OPEN` opens, and the state after reset meets every invariant (R51,
R121, R122, R380, R381). -/

namespace Sys2Proof.Machine
open Safety

-- One theorem at a time: each further thread would reserve a gigabyte of the check's memory.
set_option Elab.async false

/-! ## R51's table -/

theorem voiceAtReset_reset : VoiceAtReset Voice.reset :=
  ⟨rfl, rfl, rfl, rfl, rfl, rfl, fun k => by simp [Voice.reset], rfl, rfl, rfl, rfl, rfl, rfl, rfl, rfl, rfl, rfl, rfl⟩

/-- Every channel file of the initial state is the reset one (R34). -/
theorem State.init_chan (cfg : Config) (c : BitVec 4) : (State.init cfg).chan c = Channel.reset cfg := by
  simp [State.chan, State.init]

theorem State.eq_reset_of_mem_init {cfg : Config} {v : Voice} (h : v ∈ (State.init cfg).voices) : v = Voice.reset :=
  List.eq_of_mem_replicate h

theorem dynamicAtReset_init (cfg : Config) : DynamicAtReset (State.init cfg) := by
  refine ⟨rfl, rfl, rfl, rfl, rfl, rfl, rfl, rfl, rfl, rfl, rfl, rfl, rfl, rfl, fun c => ?_, List.length_replicate,
    fun v hv => ?_, fun b hb => ?_, rfl, rfl⟩
  · rw [State.init_chan]
    exact ⟨fun n => by simp [Channel.reset], rfl, rfl, rfl, rfl⟩
  · rw [State.eq_reset_of_mem_init hv]
    exact voiceAtReset_reset
  · simpa [State.init, Buses.zero, zeroBus] using hb

/-! ## `OPEN` and `CLOSE` -/

theorem exec_open_of_closed {s : State} (h : s.run = false) :
    exec .open_ s = .next { s.mark with run := true, idle := false, silcnt := 0, outrd := s.cfg.outBytes } := by
  simp [exec, execOpen, done, activityCommand, h]

theorem exec_open_of_open {s : State} (h : s.run = true) : exec .open_ s = .next s.mark := by
  simp [exec, execOpen, done, activityCommand, h]

theorem exec_close_of_closed {s : State} (h : s.run = false) : exec .close s = .next s.mark := by
  simp [exec, execClose, done, activityCommand, h]

theorem exec_close_of_open {s : State} (h : s.run = true) : exec .close s = .next (closeMachine s.mark) := by
  simp [exec, execClose, done, activityCommand, h]

/-- Settles O10: the four outcomes, by whether the machine was open; what `CLOSE` keeps it copies. -/
theorem openAndClose : Obligations.OpenAndClose :=
  ⟨fun _ => exec_open_of_closed, fun _ => exec_open_of_open, fun _ => exec_close_of_closed, fun s h =>
    ⟨_, exec_close_of_open h, dynamicAtReset_init s.cfg, rfl, fun _ => rfl, fun _ _ => rfl, fun _ _ => rfl, rfl, rfl, rfl,
      rfl, rfl, rfl, rfl, rfl⟩⟩

/-! ## `Reset` -/

theorem step_reset {s : State} {rest : List Event} (h : s.sched = .reset :: rest) :
    step s = .next (resetMachine { s with sched := rest }) := by
  simp [step, takeEvent_cons h]

/-- Settles O29: `Reset` starts from the tabled values of the machine's own configuration, as the state after reset does
from REF's. -/
theorem resetGivesTheTabledValues : Obligations.ResetGivesTheTabledValues := by
  have hirq : ∀ cfg, (State.init cfg).irq = false := fun _ => by simp [State.irq, State.init]
  refine ⟨fun s rest h => ⟨_, step_reset h, dynamicAtReset_init s.cfg, rfl, rfl, rfl, rfl, rfl, hirq s.cfg, rfl, rfl, rfl,
    rfl, rfl, rfl⟩, dynamicAtReset_init Config.ref, rfl, rfl, rfl, rfl, rfl, hirq Config.ref, rfl, ?_, ?_⟩
  · decide
  · decide

/-! ## The invariants at the start -/

theorem tablesInSpace_init (cfg : Config) : TablesInSpace (State.init cfg) := by
  simp [TablesInSpace, State.init, Memory.wf]

/-- A property of one voice that a reset voice has holds of every slot at the start. -/
theorem forall_mem_init {Q : Voice → Prop} (h : Q Voice.reset) (cfg : Config) : ∀ v ∈ (State.init cfg).voices, Q v :=
  fun _ hv => State.eq_reset_of_mem_init hv ▸ h

theorem voiceProtocol_reset : VoiceProtocol Voice.reset := by decide

/-- A reset voice is inactive, so it plays nowhere. -/
theorem voicePlaysInView_reset (cfg : Config) : VoicePlaysInView cfg Voice.reset := fun h => absurd h (by decide)

/-- Settles O60: each invariant holds of the initial state of every configuration. -/
theorem resetMeetsTheInvariants : Obligations.ResetMeetsTheInvariants :=
  ⟨tablesInSpace_init _, registersInRange_init _, forall_mem_init voiceInRange_reset _, delaysBounded_init _,
    forall_mem_init voiceProtocol_reset _, forall_mem_init (voicePlaysInView_reset _) _,
    forall_mem_init (Q := fun v => ∀ e ∈ v.stale, _) (fun _ he => absurd he List.not_mem_nil) _, shaped_init _,
    idleIsOpen_of_not_idle rfl, closedIsQuiet_init _⟩

end Sys2Proof.Machine
end

section
/-! The destination registers: a source is a Q15 value, a transform a signed one, so a contribution and the sum of a block
list are far inside 48 bits (R40, R210, R216, R218). -/

namespace Sys2Proof.Machine
open Safety

-- One theorem at a time: each further thread would reserve a gigabyte of the check's memory.
set_option Elab.async false

/-! ## Sources and transforms -/

/-- Every source is a Q15 value (R212). -/
theorem sourceValue_le {s : State} {v : Voice} (hs : RegistersInRange s) (hv : VoiceInRange v) (src : Source) :
    sourceValue s v src ≤ 32768 := by
  obtain ⟨hvol, hbal, hfine, hcoarse, -⟩ := hs
  obtain ⟨⟨hlevel0, -⟩, ⟨hlevel1, -⟩, hout0, hout1, -⟩ := hv
  have h7 : ∀ x : BitVec 7, 256 * x.toNat ≤ 32768 := fun x => by have := x.isLt; omega
  have h14 : ∀ x : BitVec 14, 2 * x.toNat ≤ 32768 := fun x => by have := x.isLt; omega
  cases src with
  | none => exact Nat.zero_le _
  | bad => exact Nat.zero_le _
  | pitchBend => exact h14 _
  | rpn j => exact h14 _
  | nrpn j => exact h14 _
  | chanPressure => exact h7 _
  | polyPressure => exact h7 _
  | cc n => exact h7 _
  | velocity => exact h7 _
  | keyNumber => exact h7 _
  | gate => show (if v.flags.on = true then one else 0) ≤ 32768; split <;> decide
  | eg0 => exact hlevel0
  | eg1 => exact hlevel1
  | lfo0 => exact hout0
  | lfo1 => exact hout1
  | mvol => exact hvol
  | mbal => exact hbal
  | mfine => exact hfine
  | mcoarse => exact hcoarse

/-- Shaping stays within full scale (R214). -/
theorem shapeValue_le (sh : Shape) {t : Nat} (h : t ≤ one) : shapeValue sh t ≤ one := by
  cases sh with
  | linear => exact h
  | concave => exact Nat.sub_le ..
  | switch => show (if 16384 ≤ t then one else 0) ≤ one; split <;> decide
  | reserved => exact h

theorem direct_le (x : Xform) {u : Nat} (h : u ≤ one) : direct x u ≤ one := by
  unfold direct
  split
  · exact Nat.sub_le ..
  · exact h

/-- A transformed source is a Q15 value, signed if it is bipolar (R215). -/
theorem abs_transformValue_le (x : Xform) {u : Nat} (h : u ≤ one) : |transformValue x u| ≤ 32768 := by
  have hshaped := shapeValue_le x.shape (direct_le x h)
  unfold one at hshaped
  rw [abs_le]
  unfold transformValue
  split <;> omega

theorem abs_transform_le {s : State} {v : Voice} (hs : RegistersInRange s) (hv : VoiceInRange v) (sel : BitVec 16)
    (xf : BitVec 8) : |transform s v sel xf| ≤ 32768 := by
  unfold transform
  split
  · decide
  · exact abs_transformValue_le _ (sourceValue_le hs hv _)

/-! ## Contributions and their sums -/

/-- One exact product, and one shift of at most 2^61 by 30 places (R216). -/
theorem abs_contributionOf_le {s : State} {v : Voice} (hs : RegistersInRange s) (hv : VoiceInRange v) (e : CbEntry) :
    |contributionOf s v e| ≤ 2147483648 := by
  have hscale : |e.scale.toInt| ≤ 2147483648 :=
    abs_le.mpr ⟨by have := e.scale.le_toInt; omega, by have := e.scale.toInt_lt; omega⟩
  have hproduct : |e.scale.toInt * transform s v e.src1 e.xf1 * transform s v e.src2 e.xf2| ≤
      2147483648 * 32768 * 32768 := by
    rw [abs_mul, abs_mul]
    gcongr
    · exact abs_transform_le hs hv ..
    · exact abs_transform_le hs hv ..
  rw [abs_le] at hproduct ⊢
  unfold contributionOf
  omega

theorem contribution_eq_contributionOf (s : State) (v : Voice) (e : CbEntry) : contribution s v e = contributionOf s v e := by
  rw [contribution, contributionOf, asr_eq]; norm_num

/-- The model's sum over the entries for one destination is the sum over the whole block list (R210, R211). -/
theorem dstSum_blockList (s : State) (v : Voice) (k : Nat) : dstSum s v (blockList s v) k = resolved s v k := by
  have hsplit := List.sum_map_ite (fun e : CbEntry => e.dstn.toNat = k) (contribution s v) (fun _ => 0) (blockList s v)
  rw [List.map_const', List.sum_replicate, nsmul_zero, add_zero] at hsplit
  rw [dstSum, ← hsplit, blockList, resolved, List.map_map]
  refine congrArg List.sum (List.map_congr_left fun j _ => ?_)
  simp only [Function.comp_apply, contribution_eq_contributionOf]
  rfl

/-- A sum of bounded terms. -/
theorem abs_sum_le {xs : List Int} {b : Int} (h : ∀ x ∈ xs, |x| ≤ b) : |xs.sum| ≤ xs.length * b := by
  have hlo := List.card_nsmul_le_sum xs (-b) fun x hx => (abs_le.mp (h x hx)).1
  have hhi := List.sum_le_card_nsmul xs b fun x hx => (abs_le.mp (h x hx)).2
  rw [nsmul_eq_mul] at hlo hhi
  exact abs_le.mpr ⟨by linarith, hhi⟩

/-- At most 65535 entries of at most 2^31 each: 48 bits suffice (R40, R210). -/
theorem abs_resolved_le {s : State} {v : Voice} (hs : RegistersInRange s) (hv : VoiceInRange v) (k : Nat) :
    |resolved s v k| ≤ 65535 * 2147483648 := by
  unfold resolved
  refine (abs_sum_le (b := 2147483648) fun x hx => ?_).trans ?_
  · obtain ⟨j, -, rfl⟩ := List.mem_map.mp hx
    split
    · exact abs_contributionOf_le hs hv _
    · decide
  · have hcount := v.ident.cbcnt.isLt
    rw [List.length_map, List.length_range]
    omega

/-- An evaluation writes the destinations only (R218). -/
theorem evalTick_frame (s : State) (v : Voice) : { evalTick s v with dst := v.dst } = v := by
  have hframe : ∀ d : Vector (BitVec 48) 24, { ({ v with dst := d } : Voice) with dst := v.dst } = v := fun _ => rfl
  exact hframe _

/-- Settles O41: an evaluation writes the exact sums, each inside a signed 48-bit number, and no other field. -/
theorem destinationsAreExactSums : Obligations.DestinationsAreExactSums := by
  refine fun s v hs hv => ⟨fun e => abs_le.mp (abs_contributionOf_le hs hv e), fun k => ?_, evalTick_frame s v⟩
  have hbound := abs_le.mp (abs_resolved_le hs hv k)
  simp only [evalTick, Fin.getElem_fin, Vector.getElem_ofFn]
  split
  · rfl
  · rw [dstSum_blockList, BitVec.toInt_ofInt_eq_self (by decide) (by omega) (by omega)]

end Sys2Proof.Machine
end

section
/-! What each transition writes, said once for the commands and once for the schedule, and from it the writers of every
register and memory (R22 to R34, R37, R47, R48, R71 to R73, R104). -/

namespace Sys2Proof.Machine
open Safety

-- One theorem at a time: each further thread would reserve a gigabyte of the check's memory.
set_option Elab.async false

/-! ## What a command writes -/

/-- Every command but `NOP` and the two reads marks activity (R104). -/
def MarksActivity (i : Instr) : Prop := i ≠ .nop ∧ isRead i = false

/-- The commands that write a channel file (R140 to R144). -/
inductive WritesChannel : Instr → Prop
  | ccwr (chan : BitVec 8) (ctrl : BitVec 16) (d : BitVec 32) : WritesChannel (.ccwr chan ctrl d)
  | pbwr (chan : BitVec 8) (d : BitVec 32) : WritesChannel (.pbwr chan d)
  | cpwr (chan : BitVec 8) (d : BitVec 32) : WritesChannel (.cpwr chan d)
  | rpnwr (chan : BitVec 8) (j : BitVec 16) (d : BitVec 32) : WritesChannel (.rpnwr chan j d)
  | nrpnwr (chan : BitVec 8) (j : BitVec 16) (d : BitVec 32) : WritesChannel (.nrpnwr chan j d)

/-- The commands of the closed set that write a slot (R145, R146, R182, R188 to R195). -/
inductive WritesSlot : Instr → Prop
  | choff (chan : BitVec 8) (d : BitVec 32) : WritesSlot (.choff chan d)
  | chrel (chan : BitVec 8) (d : BitVec 32) : WritesSlot (.chrel chan d)
  | vstart (slot : BitVec 8) : WritesSlot (.vstart slot)
  | voff (slot : BitVec 8) (d : BitVec 32) : WritesSlot (.voff slot d)
  | vsil (slot : BitVec 8) : WritesSlot (.vsil slot)
  | vcancel (slot : BitVec 8) : WritesSlot (.vcancel slot)
  | vglide (slot : BitVec 8) : WritesSlot (.vglide slot)
  | ppwr (slot : BitVec 8) (d : BitVec 32) : WritesSlot (.ppwr slot d)

theorem WritesChannel.marks {i : Instr} (h : WritesChannel i) : MarksActivity i := by
  cases h <;> exact ⟨nofun, rfl⟩

theorem WritesSlot.marks {i : Instr} (h : WritesSlot i) : MarksActivity i := by
  cases h <;> exact ⟨nofun, rfl⟩

/-- The same commands as O24 lists them. -/
theorem WritesChannel.listed {i : Instr} (h : WritesChannel i) :
    (∃ c n d, i = .ccwr c n d) ∨ (∃ c d, i = .pbwr c d) ∨ (∃ c d, i = .cpwr c d) ∨ (∃ c j d, i = .rpnwr c j d) ∨
    ∃ c j d, i = .nrpnwr c j d := by
  cases h <;> simp

theorem WritesSlot.listed {i : Instr} (h : WritesSlot i) :
    (∃ c d, i = .choff c d) ∨ (∃ c d, i = .chrel c d) ∨ (∃ v, i = .vstart v) ∨ (∃ v d, i = .voff v d) ∨
    (∃ v, i = .vsil v) ∨ (∃ v, i = .vcancel v) ∨ (∃ v, i = .vglide v) ∨ ∃ v d, i = .ppwr v d := by
  cases h <;> simp

/-- The fields of `s` that each command may write, whatever it writes there. -/
inductive CommandWrites (s : State) : Instr → State → Prop
  | nop : CommandWrites s .nop s
  | rdg (reg : BitVec 16) (e : BitVec 16) (r : Word) : CommandWrites s (.rdg reg) { s with err := e, rsp := r }
  | rdv (slot : BitVec 8) (field : BitVec 16) (e : BitVec 16) (r : Word) :
      CommandWrites s (.rdv slot field) { s with err := e, rsp := r }
  | marks {i : Instr} (hi : MarksActivity i) (e : BitVec 16) : CommandWrites s i { s.mark with err := e }
  | opens (h : s.run = false) : CommandWrites s .open_
      { s.mark with run := true, idle := false, silcnt := 0, outrd := s.cfg.outBytes }
  | closes (h : s.run = true) : CommandWrites s .close (closeMachine s.mark)
  | mset (reg : BitVec 16) (d : BitVec 32) (vol bal fine coarse : BitVec 16) :
      CommandWrites s (.mset reg d) { s.mark with mvol := vol, mbal := bal, mfine := fine, mcoarse := coarse }
  | asense (d : BitVec 32) (b : Bool) : CommandWrites s (.asense d) { s.mark with asen := b }
  | ienset (d : BitVec 32) (x : BitVec 16) : CommandWrites s (.ienset d) { s.mark with ien := x }
  | channel {i : Instr} (hi : WritesChannel i) (cs : Vector Channel 16) : CommandWrites s i { s.mark with chans := cs }
  | slot {i : Instr} (hi : WritesSlot i) (h : s.run = true) (vs : List Voice) (e : BitVec 16) :
      CommandWrites s i { s.mark with voices := vs, err := e }
  | wptr (a : BitVec 32) (p : BitVec 33) : CommandWrites s (.wptr a) { s.mark with wptr := p }
  | wwr (d : BitVec 32) (w : Memory 16) (p : BitVec 33) (vs : List Voice) :
      CommandWrites s (.wwr d) { s.mark with wave := w, wptr := p, voices := vs }
  | wtwr (f : BitVec 8) (i : BitVec 16) (d : BitVec 32) (m : Memory 32) : CommandWrites s (.wtwr f i d) { s.mark with wt := m }
  | cbwr (f : BitVec 8) (i : BitVec 16) (d : BitVec 32) (m : Memory 32) : CommandWrites s (.cbwr f i d) { s.mark with cb := m }
  | lrwr (f : BitVec 8) (d : BitVec 32) (r : LaunchRec) : CommandWrites s (.lrwr f d) { s.mark with lr := r }

namespace CommandWrites

variable {s : State} {i : Instr}

/-- A command that its check ended has marked activity and raised `RANGE` (R352). -/
theorem check (hi : MarksActivity i) {ok : Bool} {f : State → State}
    (h : CommandWrites s i (f s.mark)) : CommandWrites s i (checkRange ok f s.mark) := by
  unfold checkRange
  split
  · exact h
  · exact .marks hi _

/-- The same for a check that looks at the state. -/
theorem checked (hi : MarksActivity i) {ok : State → Bool} {f : State → State} (h : CommandWrites s i (f s.mark)) :
    CommandWrites s i (activityCommand s fun s => checkRange (ok s) f s) :=
  check hi h

/-- A command of the closed set marks activity, and does the rest while the machine is open (R105). -/
theorem closedSet (hi : MarksActivity i) {f : State → State}
    (h : s.run = true → CommandWrites s i (f s.mark)) : CommandWrites s i (closedSetCommand s f) := by
  unfold closedSetCommand
  split
  · rename_i hrun; exact h hrun
  · exact .marks hi s.err

theorem onChannel (hi : WritesChannel i) {chan : BitVec 8} {f : BitVec 4 → State → State}
    (hf : ∀ c, CommandWrites s i (f c s.mark)) : CommandWrites s i (channelCommand chan f s) :=
  closedSet hi.marks fun _ => check hi.marks (hf _)

theorem onChannelSlots (hi : WritesSlot i) {chan : BitVec 8} {f : BitVec 4 → State → State}
    (hf : s.run = true → ∀ c, CommandWrites s i (f c s.mark)) : CommandWrites s i (channelCommand chan f s) :=
  closedSet hi.marks fun hrun => check hi.marks (hf hrun _)

theorem onSlot (hi : WritesSlot i) {slot : BitVec 8} {f : Nat → State → State}
    (hf : s.run = true → CommandWrites s i (f slot.toNat s.mark)) : CommandWrites s i (slotCommand slot f s) :=
  closedSet hi.marks fun hrun => check hi.marks (hf hrun)

theorem startOn (hi : WritesSlot i) (hrun : s.run = true) (v : Nat) : CommandWrites s i (startOn v s.mark) := by
  unfold Machine.startOn
  split
  · exact .marks hi.marks _
  · split
    · exact .marks hi.marks _
    · unfold launchOn
      split
      · exact .slot hi hrun _ s.err
      · exact .slot hi hrun _ _

theorem setMaster (reg : BitVec 16) (d : BitVec 32) (n : Nat) (x : BitVec 16) :
    CommandWrites s (.mset reg d) (s.mark.setMaster n x) := by
  unfold State.setMaster
  split <;> exact .mset reg d _ _ _ _

end CommandWrites

/-- Every command ends in a state that differs only where the command writes. -/
theorem exec_writes (i : Instr) (s : State) : ∃ t, exec i s = .next t ∧ CommandWrites s i t := by
  cases i with
  | nop => exact ⟨_, rfl, .nop⟩
  | open_ =>
    have hi : MarksActivity .open_ := ⟨nofun, rfl⟩
    cases hrun : s.run with
    | false => exact ⟨_, exec_open_of_closed hrun, .opens hrun⟩
    | true => exact ⟨_, exec_open_of_open hrun, .marks hi s.err⟩
  | close =>
    have hi : MarksActivity .close := ⟨nofun, rfl⟩
    cases hrun : s.run with
    | false => exact ⟨_, exec_close_of_closed hrun, .marks hi s.err⟩
    | true => exact ⟨_, exec_close_of_open hrun, .closes hrun⟩
  | mset reg d =>
    have hi : MarksActivity (.mset reg d) := ⟨nofun, rfl⟩
    exact ⟨_, rfl, .check hi (.setMaster ..)⟩
  | asense d => exact ⟨_, rfl, .asense ..⟩
  | errclr m =>
    have hi : MarksActivity (.errclr m) := ⟨nofun, rfl⟩
    exact ⟨_, rfl, .marks hi _⟩
  | ienset m => exact ⟨_, rfl, .ienset ..⟩
  | rdg reg =>
    refine ⟨_, rfl, ?_⟩
    split
    · exact .rdg reg s.err _
    · exact .rdg reg _ _
  | ccwr c n d =>
    have hi : WritesChannel (.ccwr c n d) := .ccwr c n d
    exact ⟨_, rfl, .onChannel hi fun _ => .check hi.marks (.channel hi _)⟩
  | pbwr c d =>
    have hi : WritesChannel (.pbwr c d) := .pbwr c d
    exact ⟨_, rfl, .onChannel hi fun _ => .channel hi _⟩
  | cpwr c d =>
    have hi : WritesChannel (.cpwr c d) := .cpwr c d
    exact ⟨_, rfl, .onChannel hi fun _ => .channel hi _⟩
  | rpnwr c j d =>
    have hi : WritesChannel (.rpnwr c j d) := .rpnwr c j d
    exact ⟨_, rfl, .onChannel hi fun _ => .check hi.marks (.channel hi _)⟩
  | nrpnwr c j d =>
    have hi : WritesChannel (.nrpnwr c j d) := .nrpnwr c j d
    exact ⟨_, rfl, .onChannel hi fun _ => .check hi.marks (.channel hi _)⟩
  | choff c d =>
    have hi : WritesSlot (.choff c d) := .choff c d
    exact ⟨_, rfl, .onChannelSlots hi fun hrun _ => .slot hi hrun _ s.err⟩
  | chrel c d =>
    have hi : WritesSlot (.chrel c d) := .chrel c d
    exact ⟨_, rfl, .onChannelSlots hi fun hrun _ => .slot hi hrun _ s.err⟩
  | wptr a =>
    have hi : MarksActivity (.wptr a) := ⟨nofun, rfl⟩
    exact ⟨_, rfl, .checked hi (.wptr ..)⟩
  | wwr d =>
    have hi : MarksActivity (.wwr d) := ⟨nofun, rfl⟩
    exact ⟨_, rfl, .checked hi (.wwr ..)⟩
  | wtwr f i d =>
    have hi : MarksActivity (.wtwr f i d) := ⟨nofun, rfl⟩
    exact ⟨_, rfl, .checked hi (.wtwr ..)⟩
  | cbwr f i d =>
    have hi : MarksActivity (.cbwr f i d) := ⟨nofun, rfl⟩
    exact ⟨_, rfl, .checked hi (.cbwr ..)⟩
  | lrwr f d =>
    have hi : MarksActivity (.lrwr f d) := ⟨nofun, rfl⟩
    exact ⟨_, rfl, .check hi (.lrwr ..)⟩
  | vstart v =>
    have hi : WritesSlot (.vstart v) := .vstart v
    exact ⟨_, rfl, .onSlot hi fun hrun => .startOn hi hrun _⟩
  | voff v d =>
    have hi : WritesSlot (.voff v d) := .voff v d
    exact ⟨_, rfl, .onSlot hi fun hrun => .check hi.marks (.slot hi hrun _ s.err)⟩
  | vsil v =>
    have hi : WritesSlot (.vsil v) := .vsil v
    exact ⟨_, rfl, .onSlot hi fun hrun => .slot hi hrun _ s.err⟩
  | vcancel v =>
    have hi : WritesSlot (.vcancel v) := .vcancel v
    exact ⟨_, rfl, .onSlot hi fun hrun => .slot hi hrun _ s.err⟩
  | vglide v =>
    have hi : WritesSlot (.vglide v) := .vglide v
    exact ⟨_, rfl, .onSlot hi fun hrun => .slot hi hrun _ s.err⟩
  | ppwr v d =>
    have hi : WritesSlot (.ppwr v d) := .ppwr v d
    exact ⟨_, rfl, .onSlot hi fun hrun => .slot hi hrun _ s.err⟩
  | rdv v f =>
    refine ⟨_, rfl, ?_⟩
    split
    · exact .rdv v f s.err _
    · exact .rdv v f _ _

/-! ## What a step writes -/

/-- The transitions of the schedule, `s'` the state with the transition taken from it (R5, R81, R82, R103, R380). -/
inductive StepWrites (s s' : State) : State → Prop
  /-- Nothing is scheduled, or a request that is not enabled, or a word with an undefined opcode. -/
  | waits (e : BitVec 16) : StepWrites s s' { s' with err := e }
  | command {i : Instr} {t : State} (hi : nextCommand s = some i) (h : CommandWrites s' i t) : StepWrites s s' t
  | ticks (h : TickDue s) : StepWrites s s' (tick s')
  | idles (h : s.sched.head? = some .refill) (hr : s.run = true) (ho : s.outrd = 4 * s.cfg.chunk) :
      StepWrites s s' (syntheticSilence s')
  | pulls (h : s.sched.head? = some .pullByte) (hr : s.run = true) (ho : s.outrd < 4 * s.cfg.chunk) :
      StepWrites s s' { s' with sinkGot := s.sinkGot ++ [s.outbuf.getD s.outrd 0], outrd := s.outrd + 1 }
  | resets (h : s.sched.head? = some .reset) : StepWrites s s' (resetMachine s')

/-- Every step is one of these transitions. -/
theorem step_writes {s t : State} (h : step s = .next t) : ∃ rest, StepWrites s { s with sched := rest } t := by
  cases hs : s.sched with
  | nil =>
    obtain rfl : s = t := by simpa [step, takeEvent_nil hs] using h
    exact ⟨s.sched, .waits s.err⟩
  | cons e rest =>
    refine ⟨rest, ?_⟩
    cases e with
    | cmd w =>
      cases hw : decode w with
      | ok i =>
        obtain ⟨t', ht', hwrites⟩ := exec_writes i { s with sched := rest }
        obtain rfl : t' = t := by simpa [step_cmd_of_decode_ok hs hw, ht'] using h
        exact .command (by simp [nextCommand, hs, hw, Except.toOption]) hwrites
      | error e =>
        obtain rfl : undefinedOpcode { s with sched := rest } = t := by simpa [step_cmd_of_decode_error hs hw] using h
        exact .waits _
    | refill =>
      obtain rfl : refill { s with sched := rest } = t := by simpa [step, takeEvent_cons hs] using h
      have hhead : s.sched.head? = some .refill := by rw [hs]; rfl
      unfold refill
      split
      · rename_i hen
        obtain ⟨hr, ho⟩ : s.run = true ∧ s.outrd = s.cfg.outBytes := by simpa [State.refillEnabled] using hen
        split
        · exact .idles hhead hr ho
        · rename_i hidle
          exact .ticks ⟨hhead, hr, ho, by simpa using hidle⟩
      · exact .waits s.err
    | pullByte =>
      obtain rfl : pullByte { s with sched := rest } = t := by simpa [step, takeEvent_cons hs] using h
      have hhead : s.sched.head? = some .pullByte := by rw [hs]; rfl
      unfold pullByte
      split
      · rename_i hen
        obtain ⟨hr, ho⟩ : s.run = true ∧ s.outrd < s.cfg.outBytes := by simpa [State.pullEnabled] using hen
        exact .pulls hhead hr ho
      · exact .waits s.err
    | reset =>
      obtain rfl : resetMachine { s with sched := rest } = t := by simpa [step_reset hs] using h
      exact .resets (by rw [hs]; rfl)

/-! ## The writers of each field -/

theorem CommandWrites.cfg {s t : State} {i : Instr} (h : CommandWrites s i t) : t.cfg = s.cfg := by
  cases h <;> rfl

/-- No transition changes the configuration (R7). -/
theorem StepWrites.cfg {s s' t : State} (h : StepWrites s s' t) : t.cfg = s'.cfg := by
  cases h with
  | waits e => rfl
  | command hi h => exact h.cfg
  | ticks h => exact tick_cfg s'
  | idles h hr ho => rfl
  | pulls h hr ho => rfl
  | resets h => rfl

/-- A tick clears `ASEN` only when the watchdog fires (R302). -/
theorem watchdogDue_of_tick_asen {s : State} (h : (tick s).asen ≠ s.asen) : WatchdogDue s := by
  refine (watchdogFires_iff s).mp ?_
  by_contra hf
  exact h (by simp [Bool.eq_false_of_not_eq_true hf])

/-- Settles O24: each transition is one of `StepWrites`, a command one of `CommandWrites`, and these name what they write. -/
theorem stateIsWrittenByItsWritersOnly : Obligations.StateIsWrittenByItsWritersOnly := by
  intro s t hstep
  obtain ⟨rest, hwrites⟩ := step_writes hstep
  refine ⟨hwrites.cfg, fun hreset => ?_⟩
  clear hstep
  cases hwrites with
  | waits e => simp
  | command hi h =>
    cases h with
    | nop => simp
    | rdg reg e r => simp [hi]
    | rdv slot field e r => simp [hi]
    | marks hm e =>
      obtain ⟨hn, hr⟩ := hm
      simp [hi, hn, hr]
    | opens hrun =>
      have hrun : s.run = false := hrun
      simp [hi, hrun, isRead]
    | closes hrun =>
      have hrun : s.run = true := hrun
      simp [hi, hrun, isRead, closeMachine]
    | mset reg d vol bal fine coarse => simp [hi, isRead]
    | asense d b => simp [hi, isRead]
    | ienset d x => simp [hi, isRead]
    | channel hc cs =>
      obtain ⟨hn, hr⟩ := hc.marks
      simp [hi, hn, hr, hc.listed]
    | slot hv hrun vs e =>
      obtain ⟨hn, hr⟩ := hv.marks
      have hrun : s.run = true := hrun
      simp [hi, hn, hr, hv.listed, hrun]
    | wptr a p => simp [hi, isRead]
    | wwr d w p vs => simp [hi, isRead]
    | wtwr f i d m => simp [hi, isRead]
    | cbwr f i d m => simp [hi, isRead]
    | lrwr f d r => simp [hi, isRead]
  | ticks h =>
    have ⟨hhead, hrun, hempty, _⟩ := h
    let s' : State := { s with sched := rest }
    exact ⟨absurd (tick_wave s'), absurd (tick_wt s'), absurd (tick_cb s'), absurd (tick_wptr s'), absurd (tick_lr s'),
      absurd (tick_rsp s'), absurd (tick_ien s'), by simp, absurd (tick_chans s'), fun _ => .inl h, absurd (tick_run s'),
      fun hne => .inr (.inr ⟨h, watchdogDue_of_tick_asen (s := s') hne⟩), fun _ => .inl h, fun _ => .inl h,
      fun _ => .inr ⟨hhead, hrun, hempty⟩, fun _ => .inr (.inr ⟨hrun, .inl ⟨hhead, hempty⟩⟩), fun _ => .inl h⟩
  | idles hhead hrun hempty => simp [syntheticSilence, hhead, hrun, hempty]
  | pulls hhead hrun hfull => simp [hhead, hrun, hfull]
  | resets hhead => exact absurd hhead hreset

end Sys2Proof.Machine
end

section
/-! The state of a slot moves along R180's table only: what each writer of the slots does to `ACT` and `PEND.VALID`, command
by command and through a tick (R37, R180, R187, R302). -/

namespace Sys2Proof.Machine
open Safety

-- One theorem at a time: each further thread would reserve a gigabyte of the check's memory.
set_option Elab.async false

/-! ## The state of a slot -/

/-- The state of a slot is read from `ACT` and `PEND.VALID` alone (R37). -/
theorem slotState_congr {v w : Voice} (ha : w.act = v.act) (hp : w.pend.valid = v.pend.valid) : slotState w = slotState v := by
  unfold slotState; rw [ha, hp]

theorem slotState_of_not_pend {v : Voice} (h : v.pend.valid = false) : slotState v = if v.act then .active else .free := by
  unfold slotState; rw [h]; cases v.act <;> rfl

theorem slotState_of_pend {v : Voice} (h : v.pend.valid = true) :
    slotState v = if v.act then .releasingPending else .freeQueued := by
  unfold slotState; rw [h]; cases v.act <;> rfl

/-! ## One slot of the list -/

/-- A slot after one slot was updated: as it was, or it is that slot and was updated. -/
theorem State.updVoice_voice (s : State) (n v : Nat) (f : Voice → Voice) :
    (s.updVoice n f).voice v = s.voice v ∨ (n = v ∧ (s.updVoice n f).voice v = f (s.voice v)) := by
  rcases Nat.lt_or_ge n s.voices.length with hn | hn
  · rw [s.voice_updVoice v f hn]
    by_cases h : v = n
    · subst h; exact .inr ⟨rfl, if_pos rfl⟩
    · exact .inl (if_neg h)
  · left
    simp only [State.voice, State.updVoice_voices, List.modify_eq_self hn]

/-- A slot after an update of every slot: as it was, if it is out of range, or updated. -/
theorem State.mapVoices_voice {s t : State} {f : Voice → Voice} (ht : t.voices = s.voices.map f) (v : Nat) :
    t.voice v = s.voice v ∨ t.voice v = f (s.voice v) := by
  rcases Nat.lt_or_ge v s.voices.length with hv | hv
  · exact .inr (s.voice_map f hv t ht)
  · left
    rw [s.voice_ge hv, t.voice_ge (by rw [ht, List.length_map]; exact hv)]

/-- An update that keeps `ACT` and `PEND.VALID` changes no slot state. -/
theorem slotState_updVoice {f : Voice → Voice} (hf : ∀ x, slotState (f x) = slotState x) (s : State) (n v : Nat) :
    slotState ((s.updVoice n f).voice v) = slotState (s.voice v) := by
  rcases s.updVoice_voice n v f with h | ⟨-, h⟩ <;> rw [h]
  exact hf _

theorem slotState_mapVoices {s t : State} {f : Voice → Voice} (hf : ∀ x, slotState (f x) = slotState x)
    (ht : t.voices = s.voices.map f) (v : Nat) : slotState (t.voice v) = slotState (s.voice v) := by
  rcases State.mapVoices_voice ht v with h | h <;> rw [h]
  exact hf _

theorem State.init_voice (cfg : Config) (v : Nat) : (State.init cfg).voice v = Voice.reset := by
  rcases Nat.lt_or_ge v (State.init cfg).voices.length with hv | hv
  · exact State.eq_reset_of_mem_init (State.voice_mem _ hv)
  · exact State.voice_ge _ hv

/-! ## Commands that keep every slot state -/

theorem slotState_noteOff (mode : Nat) (v : Voice) : slotState (v.noteOff mode) = slotState v := by
  unfold Voice.noteOff
  split
  · split <;> rfl
  · rfl

theorem slotState_silence (v : Voice) : slotState (if v.act then v.silence else v) = slotState v := by
  split <;> rfl

theorem slotState_glideTo (r : LaunchRec) (v : Voice) : slotState (v.glideTo r) = slotState v := by
  unfold Voice.glideTo; split <;> rfl

theorem slotState_press (x : BitVec 7) (v : Voice) : slotState (if v.act then { v with pp := x } else v) = slotState v := by
  split <;> rfl

theorem slotState_channelRelease (c : BitVec 4) (m0 m1 : Bool) (v : Voice) :
    slotState (v.channelRelease c m0 m1) = slotState v := by
  unfold Voice.channelRelease
  dsimp only
  split_ifs <;> rfl

theorem slotState_noteRewrite (a : Nat) (old : BitVec 16) (v : Voice) : slotState (v.noteRewrite a old) = slotState v :=
  slotState_congr (by simp) (by simp)

/-! ## Commands that change one -/

/-- A command on a slot that changed a slot state has passed the checks of its stage (R105, R352). -/
theorem slotCommand_of_slotState_ne {s : State} {slot : BitVec 8} {f : Nat → State → State} {v : Nat} (hrun : s.run = true)
    (hne : slotState ((slotCommand slot f s).voice v) ≠ slotState (s.voice v)) :
    slotCommand slot f s = f slot.toNat s.mark := by
  rcases Nat.lt_or_ge slot.toNat s.cfg.nv with h | h
  · exact slotCommand_ok hrun h f
  · exact absurd (by rw [slotCommand_bad hrun h f]; rfl) hne

theorem channelCommand_of_slotState_ne {s : State} {chan : BitVec 8} {f : BitVec 4 → State → State} {v : Nat}
    (hrun : s.run = true) (hne : slotState ((channelCommand chan f s).voice v) ≠ slotState (s.voice v)) :
    channelCommand chan f s = f (chan.setWidth 4) s.mark := by
  rcases Nat.lt_or_ge 15 chan.toNat with h | h
  · exact absurd (by rw [channelCommand_bad hrun h f]; rfl) hne
  · exact channelCommand_ok hrun h f

/-- A start on a slot: it is refused, it is queued on an active slot, or a voice is started on a free one (R182, R186). -/
theorem startOn_cases (n : Nat) (s : State) :
    (∃ b, startOn n s = s.raise b) ∨
    ((s.voice n).pend.valid = false ∧ (s.voice n).act = true ∧ startOn n s = s.updVoice n fun x => x.takeover s.lr) ∨
    ((s.voice n).pend.valid = false ∧ (s.voice n).act = false ∧ ∃ bits,
      startOn n s = (s.updVoice n fun _ => initVoice s s.lr).raiseAll bits) := by
  unfold startOn
  split
  · exact .inl ⟨_, rfl⟩
  · rename_i hpend
    rw [Bool.not_eq_true] at hpend
    split
    · exact .inl ⟨_, rfl⟩
    · unfold launchOn
      split
      · rename_i hact
        exact .inr (.inl ⟨hpend, hact, rfl⟩)
      · rename_i hact
        rw [Bool.not_eq_true] at hact
        exact .inr (.inr ⟨hpend, hact, _, rfl⟩)

theorem initVoice_act (s : State) (r : LaunchRec) : (initVoice s r).act = true := by simp [initVoice, freshVoice]

theorem initVoice_pend (s : State) (r : LaunchRec) : (initVoice s r).pend = .none := by simp [initVoice, freshVoice]

theorem slotState_initVoice (s : State) (r : LaunchRec) : slotState (initVoice s r) = .active := by
  have hpend : (initVoice s r).pend.valid = false := by rw [initVoice_pend]; rfl
  rw [slotState_of_not_pend hpend, if_pos (initVoice_act s r)]

/-- `VSTART` starts a FREE slot, and queues on an ACTIVE one (R182, R186). -/
theorem slotState_startOn {s : State} {n v : Nat} (hne : slotState ((startOn n s).voice v) ≠ slotState (s.voice v)) :
    n = v ∧ ((slotState (s.voice v) = .free ∧ slotState ((startOn n s).voice v) = .active) ∨
      (slotState (s.voice v) = .active ∧ slotState ((startOn n s).voice v) = .releasingPending)) := by
  rcases startOn_cases n s with ⟨b, h⟩ | ⟨hpend, hact, h⟩ | ⟨hpend, hact, bits, h⟩ <;> rw [h] at hne ⊢
  · exact absurd rfl hne
  · rcases s.updVoice_voice n v fun x => x.takeover s.lr with h | ⟨rfl, h⟩ <;> rw [h] at hne ⊢
    · exact absurd rfl hne
    · refine ⟨rfl, .inr ⟨?_, ?_⟩⟩
      · rw [slotState_of_not_pend hpend, if_pos hact]
      · rw [slotState_of_pend rfl, Voice.takeover_act, if_pos hact]
  · have hvoice : ((s.updVoice n fun _ => initVoice s s.lr).raiseAll bits).voice v =
        (s.updVoice n fun _ => initVoice s s.lr).voice v := rfl
    rw [hvoice] at hne ⊢
    rcases s.updVoice_voice n v fun _ => initVoice s s.lr with h | ⟨rfl, h⟩ <;> rw [h] at hne ⊢
    · exact absurd rfl hne
    · refine ⟨rfl, .inl ⟨?_, slotState_initVoice s s.lr⟩⟩
      rw [slotState_of_not_pend hpend, hact]
      rfl

/-- Dropping a queued record moves RELEASING_PENDING to ACTIVE and FREE_QUEUED to FREE (R147, R193). -/
theorem slotState_of_drop {v w : Voice} (ha : w.act = v.act) (hp : w.pend.valid = false) (hne : slotState w ≠ slotState v) :
    (slotState v = .releasingPending ∧ slotState w = .active) ∨ (slotState v = .freeQueued ∧ slotState w = .free) := by
  have hv : v.pend.valid = true := by
    by_contra hv
    exact hne (slotState_congr ha (hp.trans (Bool.eq_false_of_not_eq_true hv).symm))
  rw [slotState_of_pend hv, slotState_of_not_pend hp, ha]
  cases v.act with
  | true => exact .inl ⟨rfl, rfl⟩
  | false => exact .inr ⟨rfl, rfl⟩

theorem Voice.channelOff_act (v : Voice) (c : BitVec 4) (m : Bool) : (v.channelOff c m).act = v.act := by
  unfold Voice.channelOff Voice.offVoice Voice.dropPend
  split_ifs <;> rfl

/-- `ChannelOff` drops a queued record of its channel and no other (R147). -/
theorem Voice.channelOff_pend (v : Voice) (c : BitVec 4) (m : Bool) : (v.channelOff c m).pend.valid = v.pend.valid ∨
    (v.pend.launch.chan = c ∧ (v.channelOff c m).pend.valid = false) := by
  have hoff : ∀ w : Voice, (w.offVoice c m).pend = w.pend := fun w => by
    unfold Voice.offVoice; split_ifs <;> rfl
  unfold Voice.channelOff
  rw [hoff]
  unfold Voice.dropPend
  split
  · rename_i h
    simp only [Bool.and_eq_true, decide_eq_true_eq] at h
    obtain ⟨-, hchan⟩ := h
    exact .inr ⟨hchan, rfl⟩
  · exact .inl rfl

theorem slotState_channelOff {v : Voice} {c : BitVec 4} {m : Bool} (hne : slotState (v.channelOff c m) ≠ slotState v) :
    v.pend.launch.chan = c ∧ ((slotState v = .releasingPending ∧ slotState (v.channelOff c m) = .active) ∨
      (slotState v = .freeQueued ∧ slotState (v.channelOff c m) = .free)) := by
  rcases v.channelOff_pend c m with h | ⟨hchan, h⟩
  · exact absurd (slotState_congr (v.channelOff_act c m) h) hne
  · exact ⟨hchan, slotState_of_drop (v.channelOff_act c m) h hne⟩

/-- `WWR` changes no slot state: it notes the rewritten sample at most (R161, R386). -/
theorem slotState_wwr {s t : State} {d : BitVec 32} (h : exec (.wwr d) s = .next t) (v : Nat) :
    slotState (t.voice v) = slotState (s.voice v) := by
  rcases Nat.lt_or_ge s.wptr.toNat s.cfg.waveSize with hlt | hge
  · obtain rfl : s.mark.storeSample (low16 d) = t := by simpa [exec_wwr_of_lt d hlt] using h
    exact slotState_mapVoices (s := s.mark) (slotState_noteRewrite s.wptr.toNat (s.waveRead s.wptr.toNat)) rfl v
  · obtain rfl : s.mark.raise .range = t := by simpa [exec_wwr_of_ge d hge] using h
    rfl

/-- Among the commands of the closed set, `VSTART` on a slot, `VCANCEL` of it and `CHOFF` of its channel change its state
(R180). -/
theorem slotState_exec {s t : State} {i : Instr} {v : Nat} (hi : WritesSlot i) (hrun : s.run = true)
    (he : exec i s = .next t) (hne : slotState (t.voice v) ≠ slotState (s.voice v)) :
    (∃ slot, i = .vstart slot ∧ slot.toNat = v ∧
      ((slotState (s.voice v) = .free ∧ slotState (t.voice v) = .active) ∨
       (slotState (s.voice v) = .active ∧ slotState (t.voice v) = .releasingPending))) ∨
    (((∃ slot, i = .vcancel slot ∧ slot.toNat = v) ∨
      ∃ chan d, i = .choff chan d ∧ (s.voice v).pend.launch.chan = chan.setWidth 4) ∧
      ((slotState (s.voice v) = .releasingPending ∧ slotState (t.voice v) = .active) ∨
       (slotState (s.voice v) = .freeQueued ∧ slotState (t.voice v) = .free))) := by
  cases hi <;> obtain rfl := Host.Outcome.next.inj he
  case choff chan d =>
    have hpassed := channelCommand_of_slotState_ne hrun hne
    rw [hpassed] at hne ⊢
    rcases State.mapVoices_voice (s := s.mark) (t := s.mark.channelOff (chan.setWidth 4) (bit0 d)) rfl v with h | h <;>
      rw [h] at hne ⊢
    · exact absurd rfl hne
    · obtain ⟨hchan, hmove⟩ := slotState_channelOff hne
      exact .inr ⟨.inr ⟨chan, d, rfl, hchan⟩, hmove⟩
  case chrel chan d =>
    rw [channelCommand_of_slotState_ne hrun hne] at hne
    exact absurd (slotState_mapVoices (s := s.mark) (slotState_channelRelease _ _ _) rfl v) hne
  case vstart slot =>
    have hpassed := slotCommand_of_slotState_ne hrun hne
    rw [hpassed] at hne ⊢
    obtain ⟨hslot, hmove⟩ := slotState_startOn hne
    exact .inl ⟨slot, rfl, hslot, hmove⟩
  case voff slot d =>
    rw [slotCommand_of_slotState_ne hrun hne] at hne
    unfold checkRange at hne
    split at hne
    · exact absurd (slotState_updVoice (slotState_noteOff _) s.mark _ v) hne
    · exact absurd rfl hne
  case vsil slot =>
    rw [slotCommand_of_slotState_ne hrun hne] at hne
    exact absurd (slotState_updVoice slotState_silence s.mark _ v) hne
  case vcancel slot =>
    have hpassed := slotCommand_of_slotState_ne hrun hne
    rw [hpassed] at hne ⊢
    rcases s.mark.updVoice_voice slot.toNat v fun x => { x with pend := .none } with h | ⟨hslot, h⟩ <;> rw [h] at hne ⊢
    · exact absurd rfl hne
    · exact .inr ⟨.inl ⟨slot, rfl, hslot⟩, slotState_of_drop (v := s.voice v) rfl rfl hne⟩
  case vglide slot =>
    rw [slotCommand_of_slotState_ne hrun hne] at hne
    exact absurd (slotState_updVoice (slotState_glideTo _) s.mark _ v) hne
  case ppwr slot d =>
    rw [slotCommand_of_slotState_ne hrun hne] at hne
    exact absurd (slotState_updVoice (slotState_press _) s.mark _ v) hne

/-! ## The tick -/

theorem controlVoice_act (s : State) (v : Voice) : (controlVoice s v).act = v.act := by
  unfold controlVoice; split
  · exact controlLogic_act s v
  · rfl

theorem controlVoice_pend (s : State) (v : Voice) : (controlVoice s v).pend = v.pend := by
  unfold controlVoice; split
  · exact controlLogic_pend s v
  · rfl

/-- After the promotion a tick leaves `PEND` alone, and at most ends a voice (R300, R325). -/
theorem tick_act_pend (s : State) {v : Nat} (hv : v < s.voices.length) :
    ((tick s).voice v).pend = (voiceAtControl s (s.voice v)).pend ∧
    (((tick s).voice v).act = true → (voiceAtControl s (s.voice v)).act = true) := by
  obtain ⟨ctr, h⟩ := tick_voice s hv
  have hact : (voiceAtAudio s (s.voice v)).act = (voiceAtControl s (s.voice v)).act := controlVoice_act ..
  have hpend : (voiceAtAudio s (s.voice v)).pend = (voiceAtControl s (s.voice v)).pend := controlVoice_pend ..
  rw [h, ← hact, ← hpend]
  split
  · rename_i ha
    rw [Voice.finish_eq]
    exact ⟨rfl, fun _ => ha⟩
  · exact ⟨rfl, id⟩

/-- A tick keeps the number of slots. -/
theorem tick_voices_length (s : State) : (tick s).voices.length = s.voices.length := by
  have hbefore := voices_beforeAudio s
  have htick : (tick s).voices =
      (audioAll (fxControl (controlAll (promoteAll (watchdog (delayIn s)))))).voices := by
    rw [tick_voices, tickToBuses, fxAudio_voices, monoFold_voices]
  rw [htick]
  exact (audioVoices_length ..).trans (by rw [hbefore, List.length_map])

/-- A firing watchdog leaves no queued record and ends no voice (R147, R302). -/
theorem voiceAtControl_of_fires {s : State} (h : s.watchdogFires = true) (v : Voice) :
    (voiceAtControl s v).act = v.act ∧ (voiceAtControl s v).pend.valid = false := by
  have hact : v.allOff.act = v.act := by
    show (if v.act then v.silence else v).act = v.act
    split <;> rfl
  have hpend : v.allOff.pend.valid = false := by
    unfold Voice.allOff
    cases hp : v.pend.valid <;> simp [hp]
  have hkeep : voiceAtControl s v = v.allOff := by
    simp [voiceAtControl, h, promoteVoice, hpend]
  rw [hkeep]
  exact ⟨hact, hpend⟩

/-- Without the watchdog only a FREE_QUEUED slot is changed before the control logic, and its record is consumed (R187). -/
theorem voiceAtControl_of_not_fires {s : State} (h : s.watchdogFires = false) (v : Voice) :
    voiceAtControl s v = v ∨ (slotState v = .freeQueued ∧ (voiceAtControl s v).pend.valid = false) := by
  have hoff : voiceAtControl s v = promoteVoice s v := by simp [voiceAtControl, h]
  rw [hoff]
  unfold promoteVoice
  split
  · rename_i hq
    simp only [Bool.and_eq_true, Bool.not_eq_true'] at hq
    obtain ⟨hact, hpend⟩ := hq
    refine .inr ⟨by rw [slotState_of_pend hpend, hact]; rfl, ?_⟩
    split
    · rw [initVoice_pend]; rfl
    · rfl
  · exact .inl rfl

/-- Where no voice starts and the record stays, a slot state changes only because a voice ended. -/
theorem ended_of_slotState_ne {v w : Voice} (hact : w.act = true → v.act = true) (hp : w.pend.valid = v.pend.valid)
    (hne : slotState w ≠ slotState v) : w.act = false ∧ v.act = true := by
  have hchanged : w.act ≠ v.act := fun ha => hne (slotState_congr ha hp)
  cases hw : w.act with
  | true => exact absurd (hw.trans (hact hw).symm) hchanged
  | false => exact ⟨rfl, Bool.eq_true_of_not_eq_false fun hv => hchanged (hw.trans hv.symm)⟩

/-- What a tick does to the state of a slot (R180): an active voice may end, a queued note may start, and start and end;
the watchdog drops what is queued. -/
theorem slotState_tick {s : State} {v : Nat} (hne : slotState ((tick s).voice v) ≠ slotState (s.voice v)) :
    (slotState (s.voice v) = .active ∧ slotState ((tick s).voice v) = .free) ∨
    (slotState (s.voice v) = .releasingPending ∧ slotState ((tick s).voice v) = .freeQueued ∧ ¬ WatchdogDue s) ∨
    (slotState (s.voice v) = .releasingPending ∧ slotState ((tick s).voice v) ∈ [SlotState.active, .free] ∧ WatchdogDue s) ∨
    (slotState (s.voice v) = .freeQueued ∧ slotState ((tick s).voice v) = .active ∧ ¬ WatchdogDue s) ∨
    (slotState (s.voice v) = .freeQueued ∧ slotState ((tick s).voice v) = .free) := by
  rcases Nat.lt_or_ge v s.voices.length with hv | hv
  swap
  · exact absurd (by rw [s.voice_ge hv, (tick s).voice_ge (by rw [tick_voices_length]; exact hv)]) hne
  obtain ⟨hpend, hact⟩ := tick_act_pend s hv
  generalize (tick s).voice v = w at *
  generalize s.voice v = x at *
  cases hf : s.watchdogFires with
  | true =>
    have hdue : WatchdogDue s := (watchdogFires_iff s).mp hf
    obtain ⟨hkeep, hdrop⟩ := voiceAtControl_of_fires hf x
    have hw := slotState_of_not_pend (v := w) (by rw [hpend, hdrop])
    rw [hkeep] at hact
    cases hx : x.pend.valid with
    | false =>
      obtain ⟨hstop, hgoes⟩ := ended_of_slotState_ne hact (by rw [hpend, hdrop, hx]) hne
      exact .inl ⟨by rw [slotState_of_not_pend hx, if_pos hgoes], by rw [hw, hstop]; rfl⟩
    | true =>
      rw [hw, slotState_of_pend hx]
      cases hxa : x.act with
      | true => exact .inr (.inr (.inl ⟨rfl, by cases w.act <;> decide, hdue⟩))
      | false =>
        have hstop : w.act = false := by rw [hxa] at hact; simpa using hact
        exact .inr (.inr (.inr (.inr ⟨rfl, by rw [hstop]; rfl⟩)))
  | false =>
    have hdue : ¬ WatchdogDue s := fun h => absurd ((watchdogFires_iff s).mpr h) (by simp [hf])
    rcases voiceAtControl_of_not_fires hf x with hsame | ⟨hqueued, hdrop⟩
    · rw [hsame] at hpend hact
      obtain ⟨hstop, hgoes⟩ := ended_of_slotState_ne hact (by rw [hpend]) hne
      cases hx : x.pend.valid with
      | false =>
        have hw := slotState_of_not_pend (v := w) (by rw [hpend, hx])
        exact .inl ⟨by rw [slotState_of_not_pend hx, if_pos hgoes], by rw [hw, hstop]; rfl⟩
      | true =>
        have hw := slotState_of_pend (v := w) (by rw [hpend, hx])
        exact .inr (.inl ⟨by rw [slotState_of_pend hx, if_pos hgoes], by rw [hw, hstop]; rfl, hdue⟩)
    · have hw := slotState_of_not_pend (v := w) (by rw [hpend, hdrop])
      cases hwa : w.act with
      | true => exact .inr (.inr (.inr (.inl ⟨hqueued, by rw [hw, hwa]; rfl, hdue⟩)))
      | false => exact .inr (.inr (.inr (.inr ⟨hqueued, by rw [hw, hwa]; rfl⟩)))

/-! ## The step -/

/-- The command that HOST delivers next is the step (R5, R103). -/
theorem exec_of_nextCommand {s t : State} {i : Instr} (hi : nextCommand s = some i) (h : step s = .next t) :
    ∃ rest, exec i { s with sched := rest } = .next t := by
  unfold nextCommand at hi
  split at hi
  · rename_i w hhead
    obtain ⟨rest, hs⟩ := List.head?_eq_some_iff.mp hhead
    cases hw : decode w with
    | ok j =>
      obtain rfl : j = i := by simpa [hw, Except.toOption] using hi
      exact ⟨rest, (step_cmd_of_decode_ok hs hw).symm.trans h⟩
    | error e => simp [hw, Except.toOption] at hi
  · cases hi

/-- Settles O25: only the writers of the slots can change a slot state, and each of these follows the table. -/
theorem slotStatesFollowTheTable : Obligations.SlotStatesFollowTheTable := by
  intro s t v hstep hne
  obtain ⟨rest, hwrites⟩ := step_writes hstep
  cases hwrites with
  | waits e => exact absurd rfl hne
  | idles hhead hrun hempty => exact absurd rfl hne
  | pulls hhead hrun hfull => exact absurd rfl hne
  | resets hhead => exact .inl ⟨hhead, congrArg slotState (State.init_voice s.cfg v)⟩
  | ticks hdue => exact .inr (.inr (.inr (.inr ⟨hdue, slotState_tick (s := { s with sched := rest }) hne⟩)))
  | command hi h =>
    obtain ⟨rest', he⟩ := exec_of_nextCommand hi hstep
    cases h with
    | closes hrun => exact .inr (.inl ⟨hi, hrun, congrArg slotState (State.init_voice s.cfg v)⟩)
    | wwr d w p vs => exact absurd (slotState_wwr he v) hne
    | slot hw hrun vs e =>
      rcases slotState_exec (s := { s with sched := rest' }) hw hrun he hne with ⟨slot, rfl, hslot, hmove⟩ | ⟨hcause, hmove⟩
      · exact .inr (.inr (.inl ⟨slot, hi, hslot, hrun, hmove⟩))
      · refine .inr (.inr (.inr (.inl ⟨?_, hrun, hmove⟩)))
        rcases hcause with ⟨slot, rfl, hslot⟩ | ⟨chan, d, rfl, hchan⟩
        · exact .inl ⟨slot, hi, hslot⟩
        · exact .inr ⟨chan, d, hi, hchan⟩
    | _ => exact absurd rfl hne

end Sys2Proof.Machine
end

section
/-! Mixing: a voice's frame is a sum of Q15 products of 16-bit samples, so 256 voices cannot overflow an accumulator, and the
buses after step 5 are the exact sums in whatever order the slots are taken (R47, R86, R320 to R323). -/

namespace Sys2Proof.Machine
open Safety

-- One theorem at a time: each further thread would reserve a gigabyte of the check's memory.
set_option Elab.async false

/-! ## The bounds of one frame -/

/-- Part of the way from 0 to `d` stays between them. -/
theorem asr_fraction_bounds (d : Int) {f : Nat} (hf : f ≤ 32768) :
    min d 0 ≤ asr (d * f) 15 ∧ asr (d * f) 15 ≤ max d 0 := by
  have hf : (f : Int) ≤ 32768 := by exact_mod_cast hf
  have hf0 : (0 : Int) ≤ f := Int.natCast_nonneg f
  rw [asr_eq]
  rcases le_total 0 d with hd | hd
  · have hlo : 0 ≤ d * f := mul_nonneg hd hf0
    have hhi : d * f ≤ d * 32768 := mul_le_mul_of_nonneg_left hf hd
    omega
  · have hlo : d * 32768 ≤ d * f := mul_le_mul_of_nonpos_left hf hd
    have hhi : d * f ≤ 0 := mul_nonpos_of_nonpos_of_nonneg hd hf0
    omega

/-- A sample through a Q15 gain is no larger (R321 to R323). -/
theorem abs_gained_le {y : Int} {g : Nat} (hy : |y| ≤ 32768) (hg : g ≤ 32768) : |gained y g| ≤ 32768 := by
  have hbounds := asr_fraction_bounds y hg
  rw [abs_le] at hy ⊢
  unfold gained
  omega

/-- Interpolation stays between its two samples (R275). -/
theorem abs_lerp_le {a b : Int} {f : Nat} (ha : |a| ≤ 32768) (hb : |b| ≤ 32768) (hf : f ≤ 32768) : |lerp a b f| ≤ 32768 := by
  have hbounds := asr_fraction_bounds (b - a) hf
  rw [abs_le] at ha hb ⊢
  unfold lerp
  omega

theorem abs_toInt_le (x : BitVec 16) : |x.toInt| ≤ 32768 := by
  have hlo := x.le_toInt
  have hhi := x.toInt_lt
  rw [abs_le]
  omega

/-- An interpolated value is a 16-bit one (R275). -/
theorem abs_interp_le (s : State) (stale : List (Nat × BitVec 16)) (d : Desc) (p : Pos) (ctr : Nat) :
    |(interp s stale d p ctr).1| ≤ 32768 := by
  have hfrac : p.frac.toNat ≤ 32768 := p.frac.isLt.le
  have hzero : |(0 : Int)| ≤ 32768 := by decide
  unfold interp
  split
  · exact hzero
  · dsimp only
    split
    · exact abs_lerp_le (abs_toInt_le _) hzero hfrac
    · exact abs_lerp_le (abs_toInt_le _) (abs_toInt_le _) hfrac

/-- What one frame adds to a bus is at most full scale. -/
structure FrameAdd.Bounded (a : FrameAdd) : Prop where
  l : |a.l| ≤ 32768
  r : |a.r| ≤ 32768
  m : |a.m| ≤ 32768
  e1 : |a.e1| ≤ 32768
  e2 : |a.e2| ≤ 32768

theorem bounded_routeSample {v : Voice} (hv : VoiceInRange v) {y : Int} (hy : |y| ≤ 32768) :
    (routeSample v.audio y).Bounded := by
  obtain ⟨-, -, -, -, -, -, -, hgl, hgr, hrv, hch, -, -⟩ := hv
  have hzero : |(0 : Int)| ≤ 32768 := by decide
  unfold routeSample
  cases v.audio.mono with
  | true => exact ⟨hzero, hzero, hy, abs_gained_le hy hrv, abs_gained_le hy hch⟩
  | false => exact ⟨abs_gained_le hy hgl, abs_gained_le hy hgr, hzero, abs_gained_le hy hrv, abs_gained_le hy hch⟩

theorem bounded_renderFrames (s : State) {v : Voice} (hv : VoiceInRange v) {k j : Nat} (h : j + k ≤ s.cfg.chunk) (p : Pos)
    (ctr : Nat) : ∀ a ∈ (renderFrames s v k j p ctr).frames, a.Bounded := by
  induction k generalizing j p ctr with
  | zero => exact fun a ha => absurd ha List.not_mem_nil
  | succ k ih =>
    have ⟨_, _, _, _, _, hnew, hold, _⟩ := hv
    have hamp : v.audio.ampAt j s.cfg.chunk ≤ 32768 := ramp_le (by omega) hold hnew
    intro a ha
    rcases List.mem_cons.mp ha with rfl | ha
    · exact bounded_routeSample hv (abs_gained_le (abs_interp_le ..) hamp)
    · exact ih (by omega) _ _ a ha

theorem bounded_renderVoice (s : State) {v : Voice} (hv : VoiceInRange v) (ctr : Nat) :
    ∀ a ∈ (renderVoice s v ctr).frames, a.Bounded :=
  bounded_renderFrames s hv (by omega) v.pos ctr

/-! ## Frames without a rewritten sample -/

/-- Where no sample was rewritten an interpolated value takes no free choice (R386). -/
theorem interp_of_not_stale (s : State) (d : Desc) (p : Pos) (ctr ctr' : Nat) :
    (interp s [] d p ctr).1 = (interp s [] d p ctr').1 := by
  have hread : ∀ n a, (s.voiceRead [] n a).1 = s.waveRead a := fun n a => by
    rw [s.voiceRead_of_not_stale n fun x => List.not_mem_nil]
  unfold interp
  split
  · rfl
  · dsimp only
    split <;> simp only [hread]

theorem renderFrames_of_not_stale (s : State) {v : Voice} (h : v.stale = []) (k j : Nat) (p : Pos) (ctr ctr' : Nat) :
    (renderFrames s v k j p ctr).frames = (renderFrames s v k j p ctr').frames := by
  induction k generalizing j p ctr ctr' with
  | zero => rfl
  | succ k ih =>
    simp only [renderFrames, h]
    rw [interp_of_not_stale s v.desc p ctr ctr', ih]

/-! ## Step 5 as a fold -/

/-- The order of two additions to a bus is free. -/
theorem addToBus_right_comm (bus : List (BitVec 32)) (xs ys : List Int) :
    addToBus (addToBus bus xs) ys = addToBus (addToBus bus ys) xs := by
  unfold addToBus
  induction bus generalizing xs ys with
  | nil => rfl
  | cons b bus ih =>
    cases xs with
    | nil => cases ys <;> simp
    | cons x xs =>
      cases ys with
      | nil => simp
      | cons y ys => simp only [List.zipWith_cons_cons, ih xs ys, add_right_comm]

theorem addFrames_right_comm (b : Buses) (xs ys : List FrameAdd) :
    (b.addFrames xs).addFrames ys = (b.addFrames ys).addFrames xs := by
  simp only [Buses.addFrames, addToBus_right_comm]

/-- The buses after the voices of a list have been added one after the other. -/
def Buses.addVoices (s : State) (vs : List Voice) (b : Buses) : Buses :=
  vs.foldl (fun b v => b.addFrames (renderVoice s v 0).frames) b

/-- Step 5 adds the active voices' frames and nothing else to the buses (R320). -/
theorem audioVoices_buses (s : State) {vs : List Voice} (h : ∀ v ∈ vs, v.stale = []) (b : Buses) (e : BitVec 16) (ctr : Nat) :
    (audioVoices s vs b e ctr).buses = b.addVoices s (vs.filter Voice.act) := by
  induction vs generalizing b e ctr with
  | nil => rfl
  | cons v vs ih =>
    have ih := fun b e ctr => ih (fun w hw => h w (List.mem_cons_of_mem v hw)) b e ctr
    unfold audioVoices
    split
    · rename_i hact
      rw [List.filter_cons_of_pos hact]
      have hframes := renderFrames_of_not_stale s (h v List.mem_cons_self) s.cfg.chunk 0 v.pos ctr 0
      exact (ih _ _ _).trans (congrArg (fun fs => (b.addFrames fs).addVoices s _) hframes)
    · rename_i hact
      rw [List.filter_cons_of_neg hact]
      exact ih _ _ _

/-! ## Exact sums -/

/-- One element of a bus after lists of one value per frame were added to it. -/
theorem foldl_addToBus_getD {n : Nat} {xss : List (List Int)} (hxs : ∀ xs ∈ xss, xs.length = n) {bus : List (BitVec 32)}
    (hbus : bus.length = n) {j : Nat} (hj : j < n) :
    (xss.foldl addToBus bus).getD j 0 = bus.getD j 0 + BitVec.ofInt 32 (xss.map fun xs => xs.getD j 0).sum := by
  induction xss generalizing bus with
  | nil => simp
  | cons xs xss ih =>
    have hlen : xs.length = n := hxs xs List.mem_cons_self
    have hadd : (addToBus bus xs).getD j 0 = bus.getD j 0 + BitVec.ofInt 32 (xs.getD j 0) := by
      simp [addToBus, List.getD_eq_getElem?_getD, hbus, hlen, hj]
    rw [List.foldl_cons, ih (fun ys hys => hxs ys (List.mem_cons_of_mem xs hys))
      ((addToBus_length bus xs (hlen.trans hbus.symm)).trans hbus), hadd, List.map_cons, List.sum_cons, BitVec.ofInt_add,
      BitVec.add_assoc]

/-- An accumulator holds an exact sum that fits it (R47). -/
theorem toInt_add_ofInt {x : BitVec 32} {y : Int} (hlo : -2147483648 ≤ x.toInt + y) (hhi : x.toInt + y < 2147483648) :
    (x + BitVec.ofInt 32 y).toInt = x.toInt + y := by
  rw [← BitVec.toInt_ofInt_eq_self (w := 32) (by decide) hlo hhi, BitVec.ofInt_add, BitVec.ofInt_toInt]

/-- A live bus and the part of a frame that is added to it. -/
structure IsLiveBus (bus : Buses → List (BitVec 32)) (g : FrameAdd → Int) : Prop where
  added : ∀ b fs, bus (b.addFrames fs) = addToBus (bus b) (fs.map g)
  bounded : ∀ a : FrameAdd, a.Bounded → |g a| ≤ 32768

theorem isLiveBus_l : IsLiveBus Buses.l FrameAdd.l := ⟨fun _ _ => rfl, fun _ h => h.l⟩
theorem isLiveBus_r : IsLiveBus Buses.r FrameAdd.r := ⟨fun _ _ => rfl, fun _ h => h.r⟩
theorem isLiveBus_m : IsLiveBus Buses.m FrameAdd.m := ⟨fun _ _ => rfl, fun _ h => h.m⟩
theorem isLiveBus_e1 : IsLiveBus Buses.e1 FrameAdd.e1 := ⟨fun _ _ => rfl, fun _ h => h.e1⟩
theorem isLiveBus_e2 : IsLiveBus Buses.e2 FrameAdd.e2 := ⟨fun _ _ => rfl, fun _ h => h.e2⟩

theorem bus_addVoices {bus : Buses → List (BitVec 32)} {g : FrameAdd → Int} (h : IsLiveBus bus g) (s : State)
    (vs : List Voice) (b : Buses) :
    bus (b.addVoices s vs) = (vs.map fun v => (renderVoice s v 0).frames.map g).foldl addToBus (bus b) := by
  induction vs generalizing b with
  | nil => rfl
  | cons v vs ih =>
    rw [List.map_cons, List.foldl_cons, ← h.added]
    exact ih _

/-- A bounded bus and 256 voices: no accumulator overflows, so each element gains the exact sum (R47, R321). -/
theorem toInt_bus_addVoices {bus : Buses → List (BitVec 32)} {g : FrameAdd → Int} (h : IsLiveBus bus g) {s : State}
    {vs : List Voice} {b : Buses} (hvs : ∀ v ∈ vs, VoiceInRange v) (hcount : vs.length ≤ 256)
    (hlen : (bus b).length = s.cfg.chunk) (hb : ∀ x ∈ bus b, -268435456 ≤ x.toInt ∧ x.toInt ≤ 268435456) {j : Nat}
    (hj : j < s.cfg.chunk) : ((bus (b.addVoices s vs)).getD j 0).toInt =
      ((bus b).getD j 0).toInt + (vs.map fun v => ((renderVoice s v 0).frames.map g).getD j 0).sum := by
  have hframes : ∀ xs ∈ vs.map fun v => (renderVoice s v 0).frames.map g, xs.length = s.cfg.chunk := by
    intro xs hxs
    obtain ⟨v, -, rfl⟩ := List.mem_map.mp hxs
    rw [List.length_map]
    exact renderFrames_length ..
  have hterm : ∀ y ∈ vs.map fun v => ((renderVoice s v 0).frames.map g).getD j 0, |y| ≤ 32768 := by
    intro y hy
    obtain ⟨v, hv, rfl⟩ := List.mem_map.mp hy
    have hjv : j < ((renderVoice s v 0).frames.map g).length := by rw [hframes _ (List.mem_map_of_mem hv)]; exact hj
    rw [List.getD_eq_getElem _ _ hjv, List.getElem_map]
    exact h.bounded _ (bounded_renderVoice s (hvs v hv) 0 _ (List.getElem_mem _))
  have hsum := abs_le.mp (abs_sum_le hterm)
  rw [List.length_map] at hsum
  have hstart : -268435456 ≤ ((bus b).getD j 0).toInt ∧ ((bus b).getD j 0).toInt ≤ 268435456 := by
    rw [List.getD_eq_getElem _ _ (hlen.symm ▸ hj)]
    exact hb _ (List.getElem_mem _)
  rw [bus_addVoices h, foldl_addToBus_getD hframes hlen hj, List.map_map]
  exact toInt_add_ofInt (by simp only [Function.comp_def]; omega) (by simp only [Function.comp_def]; omega)

/-- What a voice renders does not depend on which slots there are. -/
theorem addVoices_withVoices (s : State) (us vs : List Voice) (b : Buses) :
    b.addVoices { s with voices := us } vs = b.addVoices s vs := by
  have hsame : SameInputs s { s with voices := us } := ⟨rfl, rfl, rfl, rfl, rfl, rfl, rfl, rfl, rfl, rfl⟩
  simp only [Buses.addVoices, hsame.renderVoice]

/-- The order in which voices are added is free (R86). -/
theorem addVoices_perm (s : State) {us vs : List Voice} (h : us.Perm vs) (b : Buses) : b.addVoices s us = b.addVoices s vs :=
  have : RightCommutative fun (b : Buses) (v : Voice) => b.addFrames (renderVoice s v 0).frames :=
    ⟨fun b _ _ => addFrames_right_comm b _ _⟩
  h.foldl_eq b

/-- Settles O39: step 5 is a fold of additions that commute, and no sum of it leaves the accumulators. -/
theorem mixingIsExactAndOrderFree : Obligations.MixingIsExactAndOrderFree := by
  intro s hfresh hshaped hrange hnv hbounds
  have ⟨hvoices, _, hl, hr, hm, he1, he2, _⟩ := hshaped
  simp only [List.mem_append] at hbounds
  have hbuses : (audioAll s).buses = s.buses.addVoices s (s.voices.filter Voice.act) := audioVoices_buses s hfresh ..
  refine ⟨fun j hj => ⟨fun g => ((s.voices.filter Voice.act).map fun v => ((renderVoice s v 0).frames.map g).getD j 0).sum,
    fun _ => rfl, ?_⟩, fun vs hperm => ?_⟩
  · have hcount : (s.voices.filter Voice.act).length ≤ 256 := (List.length_filter_le ..).trans (hvoices.trans_le hnv)
    have hactive : ∀ v ∈ s.voices.filter Voice.act, VoiceInRange v := fun v hv => hrange v (List.mem_of_mem_filter hv)
    rw [hbuses]
    exact ⟨toInt_bus_addVoices isLiveBus_l hactive hcount hl (fun x hx => hbounds x (by simp [hx])) hj,
      toInt_bus_addVoices isLiveBus_r hactive hcount hr (fun x hx => hbounds x (by simp [hx])) hj,
      toInt_bus_addVoices isLiveBus_m hactive hcount hm (fun x hx => hbounds x (by simp [hx])) hj,
      toInt_bus_addVoices isLiveBus_e1 hactive hcount he1 (fun x hx => hbounds x (by simp [hx])) hj,
      toInt_bus_addVoices isLiveBus_e2 hactive hcount he2 (fun x hx => hbounds x (by simp [hx])) hj⟩
  · have hvs : (audioAll { s with voices := vs }).buses = s.buses.addVoices { s with voices := vs } (vs.filter Voice.act) :=
      audioVoices_buses _ (fun v hv => hfresh v (hperm.subset hv)) ..
    rw [hvs, hbuses, addVoices_withVoices, addVoices_perm s (hperm.filter _)]

end Sys2Proof.Machine
end

section
/-! Every step keeps the three memories canonical and inside their spaces: only the table commands write them, each one
element, and each after its range check (R70 to R73, R77, R111). -/

namespace Sys2Proof.Machine
open Safety

-- One theorem at a time: each further thread would reserve a gigabyte of the check's memory.
set_option Elab.async false

/-! ## One written element -/

/-- A property of every listed element that the written one has holds after the write. -/
theorem Memory.forall_mem_write {w : Nat} {m : Memory w} {P : Nat × BitVec w → Prop} {a : Nat} {x : BitVec w}
    (hm : ∀ e ∈ m, P e) (hx : P (a, x)) : ∀ e ∈ m.write a x, P e := fun e he => by
  rcases Memory.mem_write he with rfl | hold
  · exact hx
  · exact hm e hold

/-- `LMODE` is stored in two bits (R111). -/
theorem descFieldValue_mode_lt (x : Word) : (descFieldValue 4 x).toNat < 4 := by
  simp only [descFieldValue, if_true, low2, BitVec.toNat_setWidth]
  omega

/-- A field of a descriptor inside WT has an address inside WT, and only field 4 has the address of an `LMODE` (R72). -/
theorem wtAddr_inSpace {n i f : Nat} (hf : f ≤ 6) (hi : i < n) (x : Word) :
    wtAddr i f < 7 * n ∧ (wtAddr i f % 7 = 4 → (descFieldValue f x).toNat < 4) := by
  unfold wtAddr
  refine ⟨by omega, fun hmode => ?_⟩
  obtain rfl : f = 4 := by omega
  exact descFieldValue_mode_lt x

/-- A field of an entry inside CB has an address inside CB (R73). -/
theorem cbAddr_inSpace {n i f : Nat} (hf : f ≤ 2) (hi : i < n) : cbAddr i f < 3 * n := by
  unfold cbAddr; omega

/-! ## Every step -/

/-- The invariant is about the memories and their sizes alone. -/
theorem tablesInSpace_congr {s t : State} (hcfg : t.cfg = s.cfg) (hwave : t.wave = s.wave) (hwt : t.wt = s.wt)
    (hcb : t.cb = s.cb) (h : TablesInSpace s) : TablesInSpace t := by
  unfold TablesInSpace
  rw [hcfg, hwave, hwt, hcb]
  exact h

theorem tablesInSpace_storeSample {s : State} (h : TablesInSpace s) (x : BitVec 16) (hlt : s.wptr.toNat < s.cfg.waveSize) :
    TablesInSpace (s.storeSample x) := by
  obtain ⟨hwave, hwt, hcb, hwaveIn, hwtIn, hcbIn⟩ := h
  exact ⟨Memory.wf_write _ _ hwave, hwt, hcb, Memory.forall_mem_write hwaveIn hlt, hwtIn, hcbIn⟩

theorem tablesInSpace_wtWrite {s : State} (h : TablesInSpace s) {i f : Nat} (x : Word) (hf : f ≤ 6) (hi : i < s.cfg.nwt) :
    TablesInSpace (s.wtWrite i f (descFieldValue f x)) := by
  obtain ⟨hwave, hwt, hcb, hwaveIn, hwtIn, hcbIn⟩ := h
  exact ⟨hwave, Memory.wf_write _ _ hwt, hcb, hwaveIn, Memory.forall_mem_write hwtIn (wtAddr_inSpace hf hi x), hcbIn⟩

theorem tablesInSpace_cbWrite {s : State} (h : TablesInSpace s) {i f : Nat} (x : Word) (hf : f ≤ 2) (hi : i < s.cfg.ncb) :
    TablesInSpace (s.cbWrite i f x) := by
  obtain ⟨hwave, hwt, hcb, hwaveIn, hwtIn, hcbIn⟩ := h
  exact ⟨hwave, hwt, Memory.wf_write _ _ hcb, hwaveIn, hwtIn, Memory.forall_mem_write hcbIn (cbAddr_inSpace hf hi)⟩

theorem tablesInSpace_keeps : Keeps TablesInSpace where
  pop _ _ h := h
  mark _ h := h
  raise _ _ h := h
  respond _ _ h := h
  opens _ h _ := h
  closes _ h := h
  resets s _ := tablesInSpace_init s.cfg
  master _ n _ h := by unfold State.setMaster; split <;> exact h
  asense _ _ h := h
  errclr _ _ h := h
  ienset _ _ h := h
  chan _ _ _ h _ _ := h
  voices _ _ h _ _ := h
  voice _ _ _ h _ _ := h
  wptr _ _ h _ := h
  wwr _ x h hlt := tablesInSpace_storeSample h x hlt
  wtwr _ _ _ x h hf hi := tablesInSpace_wtWrite h x hf hi
  cbwr _ _ _ x h hf hi := tablesInSpace_cbWrite h x hf hi
  lrwr _ _ _ h := h
  idle _ h _ _ _ := h
  ticks s h _ _ _ := tablesInSpace_congr (tick_cfg s) (tick_wave s) (tick_wt s) (tick_cb s) h
  pull _ h _ _ := h

/-- Settles O55: every effect of a step keeps the memories canonical and in their spaces. -/
theorem tablesStayInSpace : Obligations.TablesStayInSpace := fun _ _ h hstep => tablesInSpace_keeps.step h hstep

end Sys2Proof.Machine
end

section
/-! The output port: what `Refill` and `PullByte` do when they are enabled and when SINK must wait, and that a request of an
open machine ends with one more byte at SINK (R81, R82, R83, R385). -/

namespace Sys2Proof.Machine
open Safety

-- One theorem at a time: each further thread would reserve a gigabyte of the check's memory.
set_option Elab.async false

/-! ## The two transitions of SINK -/

theorem step_refill {s : State} {rest : List Event} (h : s.sched = .refill :: rest) :
    step s = .next (refill { s with sched := rest }) := by
  simp [step, takeEvent_cons h]

theorem step_pullByte {s : State} {rest : List Event} (h : s.sched = .pullByte :: rest) :
    step s = .next (pullByte { s with sched := rest }) := by
  simp [step, takeEvent_cons h]

theorem step_of_sched_nil {s : State} (h : s.sched = []) : step s = .next s := by
  simp [step, takeEvent_nil h]

/-- An idle machine answers a `Refill` with synthetic silence (R81, R83). -/
theorem refill_of_idle {s : State} (hr : s.run = true) (ho : s.outrd = 4 * s.cfg.chunk) (hi : s.idle = true) :
    refill s = syntheticSilence s := by
  simp [refill, State.refillEnabled, Config.outBytes, hr, ho, hi]

/-- A machine that is not idle answers a `Refill` with a tick (R81). -/
theorem refill_of_not_idle {s : State} (hr : s.run = true) (ho : s.outrd = 4 * s.cfg.chunk) (hi : s.idle = false) :
    refill s = tick s := by
  simp [refill, State.refillEnabled, Config.outBytes, hr, ho, hi]

/-- A `Refill` waits while the machine is closed or its buffer is not empty (R81). -/
theorem refill_of_disabled {s : State} (h : s.run = false ∨ s.outrd ≠ 4 * s.cfg.chunk) : refill s = s := by
  have hdisabled : s.refillEnabled = false := by
    rcases h with h | h <;> simp [State.refillEnabled, Config.outBytes, h]
  simp [refill, hdisabled]

/-- SINK receives the byte at `OUTRD` (R82). -/
theorem pullByte_of_enabled {s : State} (hr : s.run = true) (ho : s.outrd < 4 * s.cfg.chunk) :
    pullByte s = { s with sinkGot := s.sinkGot ++ [s.outbuf.getD s.outrd 0], outrd := s.outrd + 1 } := by
  simp [pullByte, State.pullEnabled, Config.outBytes, hr, ho]

/-- A `PullByte` waits while the machine is closed or its buffer is empty (R82). -/
theorem pullByte_of_disabled {s : State} (h : s.run = false ∨ 4 * s.cfg.chunk ≤ s.outrd) : pullByte s = s := by
  have hdisabled : s.pullEnabled = false := by
    rcases h with h | h
    · simp [State.pullEnabled, h]
    · simp [State.pullEnabled, Config.outBytes, Nat.not_lt.mpr h]
  simp [pullByte, hdisabled]

/-- Settles O27: a step with a request at the head is `Refill` or `PullByte`, enabled or waiting; `Shaped` makes `OUTRD` an
index of the buffer. -/
theorem outputPortTransitions : Obligations.OutputPortTransitions := by
  refine ⟨fun s rest hs hr ho hi => ?_, fun s rest hs hwait => ?_, fun s rest hshaped hs hr ho => ?_,
    fun s rest hs hwait => ?_, fun s hs => step_of_sched_nil hs⟩
  · rw [step_refill hs, refill_of_idle (s := { s with sched := rest }) hr ho hi]
    rfl
  · rw [step_refill hs, refill_of_disabled (s := { s with sched := rest }) hwait]
  · obtain ⟨-, -, -, hlen, -⟩ := (shaped_iff s).mp hshaped
    have hindex : s.outrd < s.outbuf.length := hlen ▸ ho
    refine ⟨s.outbuf[s.outrd], List.getElem?_eq_getElem hindex, ?_⟩
    rw [step_pullByte hs, pullByte_of_enabled (s := { s with sched := rest }) hr ho, ← List.getD_eq_getElem _ 0 hindex]
  · rw [step_pullByte hs, pullByte_of_disabled (s := { s with sched := rest }) hwait]

/-! ## A request delivers a byte -/

/-- `t` is open with a byte for SINK to pull, and what SINK has got and the schedule are those of `s`. -/
structure ReadyToPull (s t : State) : Prop where
  run : t.run = true
  nonempty : t.outrd < 4 * t.cfg.chunk
  sinkGot : t.sinkGot = s.sinkGot
  sched : t.sched = s.sched

/-- After a `Refill` an open machine has a byte to pull: the chunk of a tick, silence, or what the buffer still held (R81). -/
theorem readyToPull_refill {s : State} (hr : s.run = true) (hc : 1 ≤ s.cfg.chunk) (ho : s.outrd ≤ 4 * s.cfg.chunk) :
    ReadyToPull s (refill s) := by
  rcases Nat.lt_or_eq_of_le ho with hlt | hempty
  · rw [refill_of_disabled (.inr (Nat.ne_of_lt hlt))]
    exact ⟨hr, hlt, rfl, rfl⟩
  · have hroom : 0 < 4 * s.cfg.chunk := by omega
    cases hi : s.idle with
    | true =>
      rw [refill_of_idle hr hempty hi]
      exact ⟨hr, hroom, rfl, rfl⟩
    | false =>
      rw [refill_of_not_idle hr hempty hi]
      exact ⟨(tick_run s).trans hr, by simpa using hroom, tick_sinkGot s, tick_sched s⟩

/-- Settles O28: the `Refill` leaves a byte to pull, and the `PullByte` hands it over. -/
theorem openMachineDeliversBytes : Obligations.OpenMachineDeliversBytes := by
  intro s rest hr hc ho hs
  obtain ⟨hrun, hnonempty, hgot, hsched⟩ := readyToPull_refill (s := { s with sched := .pullByte :: rest }) hr hc ho
  have hfirst : step s = .next (refill { s with sched := .pullByte :: rest }) := step_refill hs
  generalize refill { s with sched := .pullByte :: rest } = u at *
  have hsecond := step_pullByte hsched
  rw [pullByte_of_enabled (s := { u with sched := rest }) hrun hnonempty] at hsecond
  refine ⟨{ u with sched := rest, sinkGot := u.sinkGot ++ [u.outbuf.getD u.outrd 0], outrd := u.outrd + 1 }, _, ?_,
    congrArg (· ++ [u.outbuf.getD u.outrd 0]) hgot, rfl, hrun⟩
  simp only [Host.Core.run, core, hfirst, hsecond]

end Sys2Proof.Machine
end

section
/-! A tick without the watchdog runs each sounding voice's control logic and then its audio logic, once, on what the state
held when the tick began, and leaves a free slot alone (R86, R300, R320, R325); a voice that ends raises `VDONE` (R192). -/

namespace Sys2Proof.Machine
open Safety

-- One theorem at a time: each further thread would reserve a gigabyte of the check's memory.
set_option Elab.async false

/-! ## One voice -/

/-- The end of the audio logic, after the control logic, is all a tick makes of a voice (R325). -/
theorem tickedFrom_finish {s : State} {x : Voice} (hact : x.act = true) (ctr : Nat) :
    TickedFrom s x ((controlLogic s x).finish (renderVoice s (controlLogic s x) ctr).pos) := by
  have hc : (controlLogic s x).act = true := (controlLogic_act s x).trans hact
  have hstale : (controlLogic s x).stale = x.stale := controlLogic_stale s x
  refine ⟨controlLogic s x, ctr, rfl, ?_⟩
  generalize controlLogic s x = c at hc hstale ⊢
  generalize (renderVoice s c ctr).pos = p
  rw [Voice.finish_eq, hc, ← hstale]
  refine ⟨rfl, rfl, rfl, rfl, ?_, ?_⟩
  · cases c.flags.final || p.ended <;> rfl
  · show { c with act := true } = c
    rw [← hc]

/-- Before the audio logic of a tick without the watchdog an active voice has run its control logic and nothing else (R300). -/
theorem voiceAtAudio_of_act {s : State} (hf : s.watchdogFires = false) {v : Voice} (hact : v.act = true) :
    voiceAtAudio s v = controlLogic s v := by
  have hcontrol : voiceAtControl s v = v := by simp [voiceAtControl, hf, promoteVoice, hact]
  rw [voiceAtAudio, hcontrol, controlVoice, if_pos hact]

/-- A free slot reaches the audio logic of a tick without the watchdog untouched (R187, R300). -/
theorem voiceAtAudio_of_free {s : State} (hf : s.watchdogFires = false) {v : Voice} (hact : v.act = false)
    (hpend : v.pend.valid = false) : voiceAtAudio s v = v := by
  simp [voiceAtAudio, voiceAtControl, hf, promoteVoice, controlVoice, hact, hpend]

theorem slotState_eq_free_iff (v : Voice) : slotState v = .free ↔ v.act = false ∧ v.pend.valid = false := by
  unfold slotState
  cases v.act <;> cases v.pend.valid <;> decide

/-! ## A voice that ends -/

/-- Step 5 clears no error bit. -/
theorem audioVoices_err_of_set (s : State) (vs : List Voice) (b : Buses) {e : BitVec 16} (ctr : Nat) {n : Nat}
    (h : e.getLsbD n = true) : (audioVoices s vs b e ctr).err.getLsbD n = true := by
  obtain ⟨c, herr⟩ := audioVoices_err s vs b e ctr
  rw [herr, BitVec.getLsbD_or, h, Bool.true_or]

/-- An active voice is finished inactive only in its last tick or at its end, and then `VDONE` is raised (R192, R325). -/
theorem finishErr_of_ended {v : Voice} {p : Pos} (hact : v.act = true) (hend : (v.finish p).act = false) :
    (v.finishErr p).getLsbD 8 = true := by
  rw [Voice.finish_eq] at hend
  simp only [hact, Bool.true_and, Bool.not_eq_false'] at hend
  rw [Voice.finishErr, ErrBit.getLsbD_maskIf, hend]
  rfl

/-- A slot that step 5 finds active and leaves inactive has raised `VDONE` (R192). -/
theorem audioVoices_vdone_of_ended (s : State) {vs : List Voice} {b : Buses} {e : BitVec 16} {ctr i : Nat} {v w : Voice}
    (hv : vs[i]? = some v) (hact : v.act = true) (hw : (audioVoices s vs b e ctr).voices[i]? = some w)
    (hend : w.act = false) : (audioVoices s vs b e ctr).err.getLsbD 8 = true := by
  induction vs generalizing b e ctr i with
  | nil => cases hv
  | cons x vs ih =>
    unfold audioVoices at hw ⊢
    cases i with
    | zero =>
      obtain rfl : x = v := by simpa using hv
      simp only [hact, if_true, List.getElem?_cons_zero, Option.some.injEq] at hw ⊢
      subst hw
      refine audioVoices_err_of_set _ _ _ _ ?_
      rw [BitVec.getLsbD_or, finishErr_of_ended hact hend, Bool.or_true]
    | succ i =>
      rw [List.getElem?_cons_succ] at hv
      split at hw
      · rename_i hx; simp only [hx, if_true]; exact ih hv hw
      · rename_i hx; simp only [hx]; exact ih hv hw

/-- A slot that sounds in a tick and is inactive after it has raised `VDONE` (R192). -/
theorem tick_err_vdone {s : State} {v : Nat} (hv : v < s.voices.length) (hact : (voiceAtAudio s (s.voice v)).act = true)
    (hend : ((tick s).voice v).act = false) : (tick s).err.getLsbD 8 = true := by
  have hbefore := voices_beforeAudio s
  have hlen := tick_voices_length s
  have htick : tick s =
      tickOutput (fxAudio (monoFold (audioAll (fxControl (controlAll (promoteAll (watchdog (delayIn s)))))))) := rfl
  generalize fxControl (controlAll (promoteAll (watchdog (delayIn s)))) = u at hbefore htick
  obtain ⟨c, hout, -⟩ := tickOutput_eq (fxAudio (monoFold (audioAll u)))
  rw [hout] at htick
  have hstart : u.voices[v]? = some (voiceAtAudio s (s.voice v)) := by
    simp [hbefore, State.voice, List.getD_eq_getElem?_getD, hv]
  have hvoices : (tick s).voices = (audioVoices u u.voices u.buses u.err u.freeCtr).voices := congrArg State.voices htick
  have herr : (tick s).err = (audioVoices u u.voices u.buses u.err u.freeCtr).err ||| ErrBit.idle.maskIf c :=
    congrArg State.err htick
  have hfinal : (audioVoices u u.voices u.buses u.err u.freeCtr).voices[v]? = some ((tick s).voice v) := by
    have hv' : v < (tick s).voices.length := hlen.symm ▸ hv
    rw [← hvoices]
    simp [State.voice, List.getD_eq_getElem?_getD, hv']
  rw [herr, BitVec.getLsbD_or, audioVoices_vdone_of_ended u hstart hact hfinal hend, Bool.true_or]

/-! ## The step -/

/-- `TickedFrom` reads of the state only what no phase of a tick changes. -/
theorem SameInputs.tickedFrom {s t : State} (h : SameInputs s t) {x w : Voice} (hw : TickedFrom t x w) :
    TickedFrom s x w := by
  obtain ⟨c, ctr, hc, hrest⟩ := hw
  rw [h.controlLogic] at hc
  rw [h.renderVoice] at hrest
  exact ⟨c, ctr, hc, hrest⟩

/-- Settles O37, from the tick as one slot sees it: without the watchdog, the control logic then the audio logic. -/
theorem tickRunsEachVoiceOnce : Obligations.TickRunsEachVoiceOnce := by
  rintro s t v ⟨hhead, hrun, hempty, hidle⟩ hdog hstep hv
  obtain ⟨rest, hs⟩ := List.head?_eq_some_iff.mp hhead
  obtain rfl : tick { s with sched := rest } = t :=
    Host.Outcome.next.inj ((step_tick hs hrun hempty hidle).symm.trans hstep)
  have hsame : SameInputs s { s with sched := rest } := ⟨rfl, rfl, rfl, rfl, rfl, rfl, rfl, rfl, rfl, rfl⟩
  have hvoice : State.voice { s with sched := rest } v = s.voice v := rfl
  have hf : State.watchdogFires { s with sched := rest } = false :=
    Bool.eq_false_of_not_eq_true fun h => hdog ((watchdogFires_iff s).mp h)
  have hv : v < ({ s with sched := rest } : State).voices.length := hv
  rw [← hvoice]
  generalize ({ s with sched := rest } : State) = u at *
  obtain ⟨ctr, htick⟩ := tick_voice u hv
  refine ⟨fun hfree => ?_, fun hact => ?_⟩
  · obtain ⟨hact, hpend⟩ := (slotState_eq_free_iff _).mp hfree
    rw [htick, voiceAtAudio_of_free hf hact hpend, if_neg (by simp [hact])]
  · have hcontrol := voiceAtAudio_of_act hf hact
    have hsounds : (voiceAtAudio u (u.voice v)).act = true := by rw [hcontrol, controlLogic_act, hact]
    refine ⟨hsame.tickedFrom ?_, tick_err_vdone hv hsounds⟩
    rw [htick, if_pos hsounds, hcontrol]
    exact tickedFrom_finish hact ctr

end Sys2Proof.Machine
end

section
/-! Decoding and encoding: the fields of an assembled word, the commands and the undefined opcodes of the map, and what
decoding reads of a word (R100 to R102, R113, R115). -/

namespace Sys2Proof.Machine
open Safety

-- One theorem at a time: each further thread would reserve a gigabyte of the check's memory.
set_option Elab.async false

/-! ## The fields of a word -/

theorem aField_assemble (op a : BitVec 8) (b : BitVec 16) (d : BitVec 32) : aField (assemble op a b d) = a := by
  unfold aField assemble
  rw [BitVec.extractLsb'_append_eq_of_le (by decide), BitVec.extractLsb'_append_eq_of_le (by decide)]
  exact BitVec.extractLsb'_append_eq_right

theorem bField_assemble (op a : BitVec 8) (b : BitVec 16) (d : BitVec 32) : bField (assemble op a b d) = b := by
  unfold bField assemble
  rw [BitVec.extractLsb'_append_eq_of_le (by decide)]
  exact BitVec.extractLsb'_append_eq_right

theorem dField_assemble (op a : BitVec 8) (b : BitVec 16) (d : BitVec 32) : dField (assemble op a b d) = d :=
  BitVec.extractLsb'_append_eq_right

/-- `OP` is the top byte of the word (R100). -/
theorem opField_toNat (w : CmdWord) : (opField w).toNat = w.toNat / 2 ^ 56 := by
  have hw := w.isLt
  simp only [opField, BitVec.extractLsb'_toNat, Nat.shiftRight_eq_div_pow]
  omega

/-! ## Encoded words -/

/-- Settles O1: the opcode that `encode` writes selects the command's own arm, and that arm reads the operands back out of
the fields they were assembled into. -/
theorem decodeInvertsEncode : Obligations.DecodeInvertsEncode := by
  intro i
  cases i <;> simp [encode, decode, Laws.opField_assemble, aField_assemble, bField_assemble, dField_assemble]

theorem decode_of_encode_eq {i : Instr} {w : CmdWord} (h : encode i = w) : decode w = .ok i :=
  h ▸ decodeInvertsEncode i

/-- Settles O4: each of R113's words is the encoding of the command beside it. -/
theorem writtenWordsDecode : Obligations.WrittenWordsDecode := by
  unfold Obligations.WrittenWordsDecode
  and_intros <;> exact decode_of_encode_eq rfl

/-! ## The fields a command reads -/

/-- Settles O3: in every arm of the map the decoded command holds only fields that `fieldsRead` lists. -/
theorem reservedFieldsAreIgnored : Obligations.ReservedFieldsAreIgnored := by
  intro op a a' b b' d d' ha hb hd
  change decode (assemble op a b d) = decode (assemble op a' b' d')
  simp only [decode, Laws.opField_assemble, aField_assemble, bField_assemble, dField_assemble]
  split
  case h_28 => rfl
  all_goals
    rename_i hop
    simp_all [fieldsRead]

/-! ## Undefined opcodes -/

/-- The opcodes outside the map are R115's. -/
theorem decode_eq_error_iff (w : CmdWord) : (∃ e, decode w = .error e) ↔ undefinedOp (w.toNat / 2 ^ 56) := by
  have hop := (opField w).isLt
  rw [← opField_toNat]
  unfold decode undefinedOp
  generalize (opField w).toNat = op at hop ⊢
  split
  case h_28 =>
    simp only [imp_false] at *
    simp only [Except.error.injEq, exists_eq', true_iff]
    omega
  all_goals simp

theorem isNone_toOption_iff {ε α : Type} (x : Except ε α) : x.toOption.isNone = true ↔ ∃ e, x = .error e := by
  cases x <;> simp [Except.toOption]

/-- R115's count. -/
theorem undefined_opcodes_count :
    ((List.range 256).countP fun op => (decode (BitVec.ofNat 64 (op * 2 ^ 56))).toOption.isNone) = 229 := by
  decide +kernel

/-- Settles O2: the opcodes without an arm, their count, and the step on a word that decodes to an error. -/
theorem undefinedOpcodesRaiseIllop : Obligations.UndefinedOpcodesRaiseIllop := by
  refine ⟨decode_eq_error_iff, undefined_opcodes_count, fun s w rest hs hw => ?_⟩
  obtain ⟨e, he⟩ := (decode_eq_error_iff w).mpr hw
  exact step_cmd_of_decode_error hs he

end Sys2Proof.Machine
end

section
/-! The stages of a command as seen from outside: the activity marks, the closed set, and the range checks (R103 to R105,
R352). -/

namespace Sys2Proof.Machine
open Safety

-- One theorem at a time: each further thread would reserve a gigabyte of the check's memory.
set_option Elab.async false

/-! ## Activity marking -/

/-- Settles O7: `CommandWrites` names what each command does to the marks; of `CLOSE` the two outcomes say more. -/
theorem activityMarking : Obligations.ActivityMarking := by
  intro i s t h
  by_cases hclose : i = .close
  · subst hclose
    cases hrun : s.run with
    | false =>
      obtain rfl := Host.Outcome.next.inj ((exec_close_of_closed hrun).symm.trans h)
      simp [isRead]
    | true =>
      obtain rfl := Host.Outcome.next.inj ((exec_close_of_open hrun).symm.trans h)
      simp [isRead, closeMachine, State.init]
  · obtain ⟨t', ht', hwrites⟩ := exec_writes i s
    obtain rfl : t' = t := Host.Outcome.next.inj (ht'.symm.trans h)
    cases hwrites with
    | closes hrun => exact absurd rfl hclose
    | marks hi e =>
      obtain ⟨hnop, hread⟩ := hi
      simp [hnop, hread, hclose]
    | channel hi cs =>
      obtain ⟨hnop, hread⟩ := hi.marks
      simp [hnop, hread, hclose]
    | slot hi hrun vs e =>
      obtain ⟨hnop, hread⟩ := hi.marks
      simp [hnop, hread, hclose]
    | _ => simp [isRead]

/-! ## The closed set -/

/-- The commands of the closed set run in that stage (R105). -/
theorem exec_of_inClosedSet {i : Instr} (h : inClosedSet i = true) :
    ∃ f, ∀ s, exec i s = .next (closedSetCommand s f) := by
  cases i with
  | ccwr | pbwr | cpwr | rpnwr | nrpnwr | choff | chrel | vstart | voff | vsil | vcancel | vglide | ppwr =>
    exact ⟨_, fun _ => rfl⟩
  | _ => cases h

/-- `f` does not look at `RUN` and does not write it. -/
def IgnoresRun (f : State → State) : Prop := ∀ (s : State) (b : Bool), f { s with run := b } = { f s with run := b }

theorem IgnoresRun.check {ok : State → Bool} {f : State → State} (hok : ∀ s b, ok { s with run := b } = ok s)
    (hf : IgnoresRun f) : IgnoresRun fun s => checkRange (ok s) f s := by
  intro s b
  simp only [checkRange, hok]
  split
  · exact hf s b
  · rfl

/-- A command that marks activity and then ignores `RUN` works the same open or closed. -/
theorem IgnoresRun.activity {f : State → State} (hf : IgnoresRun f) : IgnoresRun fun s => activityCommand s f :=
  fun s b => hf s.mark b

theorem ignoresRun_setMaster (n : Nat) (x : BitVec 16) : IgnoresRun fun s => s.setMaster n x := by
  intro s b
  match n with
  | 0 | 1 | 2 | _ + 3 => rfl

/-- Of the registers that `RDG` answers only register 1 shows `RUN` (R127). -/
theorem State.globalWord_withRun (s : State) (b : Bool) {reg : Nat} (h : reg ≠ 1) :
    State.globalWord { s with run := b } reg = s.globalWord reg := by
  match reg, h with
  | 0, _ | 2, _ | 3, _ | 4, _ | 5, _ | 6, _ | 7, _ | 8, _ | 9, _ | 10, _ | 11, _ | _ + 12, _ => rfl

/-- Outside the closed set only `OPEN`, `CLOSE` and `RDG 1` look at `RUN` (R105). -/
theorem exec_ignoresRun {i : Instr} (hc : inClosedSet i = false) (ho : i ≠ .open_) (hcl : i ≠ .close)
    (hr : i ≠ .rdg 1) : ∃ f, IgnoresRun f ∧ ∀ s, exec i s = .next (f s) := by
  cases i with
  | open_ => exact absurd rfl ho
  | close => exact absurd rfl hcl
  | nop => exact ⟨_, fun _ _ => rfl, fun _ => rfl⟩
  | mset reg d => exact ⟨_, .activity (.check (fun _ _ => rfl) (ignoresRun_setMaster _ _)), fun _ => rfl⟩
  | asense | errclr | ienset => exact ⟨_, .activity fun _ _ => rfl, fun _ => rfl⟩
  | wptr | wwr | wtwr | cbwr | lrwr => exact ⟨_, .activity (.check (fun _ _ => rfl) fun _ _ => rfl), fun _ => rfl⟩
  | rdg reg =>
    have hreg : reg.toNat ≠ 1 := fun h => hr (congrArg Instr.rdg (BitVec.eq_of_toNat_eq h))
    refine ⟨_, fun s b => ?_, fun _ => rfl⟩
    simp only [State.globalWord_withRun s b hreg]
    split <;> rfl
  | rdv v f =>
    refine ⟨_, fun s b => ?_, fun _ => rfl⟩
    dsimp only
    split <;> rfl
  | _ => cases hc

/-- Settles O8: the closed set runs in a stage that only marks activity while closed, the other commands ignore `RUN`. -/
theorem closedSetDoesNothingWhileClosed : Obligations.ClosedSetDoesNothingWhileClosed := by
  refine ⟨fun i s hi hrun => ?_, fun i s t b hc ho hcl hr h => ?_⟩
  · obtain ⟨f, hf⟩ := exec_of_inClosedSet hi
    rw [hf, closedSetCommand_closed hrun]
    rfl
  · obtain ⟨f, hrun, hf⟩ := exec_ignoresRun hc ho hcl hr
    obtain rfl := Host.Outcome.next.inj ((hf s).symm.trans h)
    rw [hf, hrun]

/-! ## A range check in its stage -/

theorem activityCommand_accepted {s : State} {ok : State → Bool} {f : State → State} (h : ok s.mark = true) :
    activityCommand s (fun s => checkRange (ok s) f s) = f s.mark :=
  checkRange_ok h f s.mark

theorem activityCommand_refused {s : State} {ok : State → Bool} {f : State → State} (h : ok s.mark = false) :
    activityCommand s (fun s => checkRange (ok s) f s) = s.mark.raise .range :=
  checkRange_bad h f s.mark

theorem channelCommand_refused {s : State} {c : BitVec 8} {ok : State → Bool} {f : BitVec 4 → State → State}
    (hrun : s.run = true) (h : 15 < c.toNat ∨ ok s.mark = false) :
    channelCommand c (fun c s => checkRange (ok s) (f c) s) s = s.mark.raise .range := by
  rcases Nat.lt_or_ge 15 c.toNat with hc | hc
  · exact channelCommand_bad hrun hc _
  · rw [channelCommand_ok hrun hc]
    exact checkRange_bad (h.resolve_left (Nat.not_lt.mpr hc)) _ _

theorem channelCommand_accepted {s : State} {c : BitVec 8} {ok : State → Bool} {f : BitVec 4 → State → State}
    (hrun : s.run = true) (hc : c.toNat ≤ 15) (hok : ok s.mark = true) :
    channelCommand c (fun c s => checkRange (ok s) (f c) s) s = f (c.setWidth 4) s.mark := by
  rw [channelCommand_ok hrun hc]
  exact checkRange_ok hok _ _

theorem slotCommand_refused {s : State} {v : BitVec 8} {ok : State → Bool} {f : Nat → State → State}
    (hrun : s.run = true) (h : s.cfg.nv ≤ v.toNat ∨ ok s.mark = false) :
    slotCommand v (fun v s => checkRange (ok s) (f v) s) s = s.mark.raise .range := by
  rcases Nat.lt_or_ge v.toNat s.cfg.nv with hv | hv
  · rw [slotCommand_ok hrun hv]
    exact checkRange_bad (h.resolve_left (Nat.not_le.mpr hv)) _ _
  · exact slotCommand_bad hrun hv _

/-! ## Range checks that fail -/

/-- The mode of `VOFF` is two bits of `D` (R188). -/
theorem low2_toNat (d : Word) : (low2 d).toNat = d.toNat % 4 := by simp [low2]

theorem and_decide_eq_true_iff {a b m n : Nat} :
    (decide (a ≤ m) && decide (b < n)) = true ↔ ¬ (m < a ∨ n ≤ b) := by
  simp only [Bool.and_eq_true, decide_eq_true_eq]
  omega

theorem and_decide_eq_false {a b m n : Nat} (h : m < a ∨ n ≤ b) : (decide (a ≤ m) && decide (b < n)) = false :=
  Bool.eq_false_iff.mpr fun ht => and_decide_eq_true_iff.mp ht h

/-- The check of `RDV` passes for the slots and fields that R352 lets pass. -/
theorem rdv_check_iff (s : State) (v : BitVec 8) (f : BitVec 16) :
    (decide (v.toNat < s.cfg.nv) && rdvFieldOk f.toNat) = true ↔ ¬ outOfRange s (.rdv v f) := by
  simp only [rdvFieldOk, outOfRange, Bool.and_eq_true, Bool.or_eq_true, decide_eq_true_eq]
  omega

/-- A command with an operand out of range ends in its check (R103 stage 4, R352). -/
theorem exec_of_outOfRange {i : Instr} {s : State} (h : outOfRange s i) (hopen : inClosedSet i = true → s.run = true)
    (hread : isRead i = false) : exec i s = .next (s.mark.raise .range) := by
  cases i with
  | nop | open_ | close | asense | errclr | ienset => exact h.elim
  | rdg | rdv => cases hread
  | mset | lrwr => exact congrArg done (activityCommand_refused (decide_eq_false (Nat.not_le.mpr h)))
  | wptr a => exact congrArg done (activityCommand_refused (decide_eq_false (Nat.not_lt.mpr h)))
  | wwr d => exact exec_wwr_of_ge d h
  | wtwr | cbwr => exact congrArg done (activityCommand_refused (and_decide_eq_false h))
  | pbwr | cpwr | choff | chrel => exact congrArg done (channelCommand_bad (hopen rfl) h _)
  | ccwr c n d =>
    refine congrArg done (channelCommand_refused (ok := fun _ => decide (n.toNat ≤ 127)) (hopen rfl) ?_)
    exact Or.imp_right (fun hn => decide_eq_false (Nat.not_le.mpr hn)) h
  | rpnwr c j d =>
    refine congrArg done (channelCommand_refused (ok := fun s => decide (j.toNat < s.cfg.nRpn)) (hopen rfl) ?_)
    exact Or.imp_right (fun hj => decide_eq_false (Nat.not_lt.mpr hj)) h
  | nrpnwr c j d =>
    refine congrArg done (channelCommand_refused (ok := fun s => decide (j.toNat < s.cfg.nNrpn)) (hopen rfl) ?_)
    exact Or.imp_right (fun hj => decide_eq_false (Nat.not_lt.mpr hj)) h
  | vstart | vsil | vcancel | vglide | ppwr => exact congrArg done (slotCommand_bad (hopen rfl) h _)
  | voff v m =>
    refine congrArg done (slotCommand_refused (ok := fun _ => decide ((low2 m).toNat ≠ 3)) (hopen rfl) ?_)
    exact Or.imp_right (fun hm => decide_eq_false (not_not.mpr ((low2_toNat m).trans hm))) h

/-- A read with an operand out of range answers 0 and raises `RANGE` (R127, R199, R352). -/
theorem exec_read_of_outOfRange {i : Instr} {s : State} (h : outOfRange s i) (hread : isRead i = true) :
    exec i s = .next ((s.raise .range).respond 0) := by
  cases i with
  | rdg reg => exact congrArg done (if_neg (Nat.not_le.mpr h))
  | rdv v f => exact congrArg done (if_neg fun hok => (rdv_check_iff s v f).mp hok h)
  | _ => cases hread

/-! ## Range checks that pass -/

/-- From `s` to `t` the machine has not raised `RANGE`. -/
def RaisesNoRange (s t : State) : Prop := t.err.getLsbD 1 = true → s.err.getLsbD 1 = true

theorem raisesNoRange_of_err_eq {s t : State} (h : t.err = s.err) : RaisesNoRange s t :=
  fun hbit => h ▸ hbit

/-- `RANGE` is bit 1, and no other error is (R350). -/
theorem ErrBit.num_eq_one_iff (b : ErrBit) : b.num = 1 ↔ b = .range := by
  cases b <;> decide

/-- Raising another error does not raise `RANGE`. -/
theorem raisesNoRange_raiseAll (s : State) (c : Bool) {b : ErrBit} (hb : b ≠ .range) :
    RaisesNoRange s (s.raiseAll (b.maskIf c)) := by
  have hnum : 1 ≠ b.num := fun h => hb (b.num_eq_one_iff.mp h.symm)
  simp only [RaisesNoRange, State.raiseAll_err, BitVec.getLsbD_or, ErrBit.getLsbD_maskIf, hnum, decide_false,
    Bool.and_false, Bool.or_false, imp_self]

theorem raisesNoRange_raise (s : State) {b : ErrBit} (hb : b ≠ .range) : RaisesNoRange s (s.raise b) :=
  raisesNoRange_raiseAll s true hb

theorem raisesNoRange_check {s : State} {ok : Bool} {f : State → State} (hok : ok = true) (h : RaisesNoRange s (f s)) :
    RaisesNoRange s (checkRange ok f s) := by
  rwa [checkRange_ok hok]

theorem raisesNoRange_checked {s : State} {ok : State → Bool} {f : State → State} (hok : ok s.mark = true)
    (h : RaisesNoRange s.mark (f s.mark)) : RaisesNoRange s (activityCommand s fun s => checkRange (ok s) f s) :=
  raisesNoRange_check (s := s.mark) hok h

theorem raisesNoRange_closedSet {s : State} {f : State → State} (h : s.run = true → RaisesNoRange s.mark (f s.mark)) :
    RaisesNoRange s (closedSetCommand s f) := by
  unfold closedSetCommand
  split
  · rename_i hrun
    exact h hrun
  · exact id

/-- The same through each stage of a command that passes its checks (R103). -/
theorem raisesNoRange_channel {s : State} {c : BitVec 8} {f : BitVec 4 → State → State} (hc : c.toNat ≤ 15)
    (h : ∀ c, RaisesNoRange s.mark (f c s.mark)) : RaisesNoRange s (channelCommand c f s) :=
  raisesNoRange_closedSet fun _ => raisesNoRange_check (decide_eq_true hc) (h _)

theorem raisesNoRange_slot {s : State} {v : BitVec 8} {f : Nat → State → State} (hv : v.toNat < s.cfg.nv)
    (h : RaisesNoRange s.mark (f v.toNat s.mark)) : RaisesNoRange s (slotCommand v f s) :=
  raisesNoRange_closedSet fun _ => raisesNoRange_check (decide_eq_true hv) h

/-- `Validate` fails with `WTBAD` or `CBBAD` (R184). -/
theorem validate_ne_range (s : State) (r : LaunchRec) : validate s r ≠ some .range := by
  unfold validate
  split_ifs <;> nofun

theorem raisesNoRange_startOn (v : Nat) (s : State) : RaisesNoRange s (startOn v s) := by
  unfold startOn
  split
  · exact raisesNoRange_raise s nofun
  · split
    · rename_i b hb
      exact raisesNoRange_raise s fun h => validate_ne_range s s.lr (h ▸ hb)
    · unfold launchOn
      split
      · exact raisesNoRange_of_err_eq rfl
      · exact raisesNoRange_raiseAll (s.updVoice v _) _ nofun

/-- A command with its operands in range raises no `RANGE` (R352). -/
theorem exec_raisesNoRange {i : Instr} {s : State} (h : ¬ outOfRange s i) :
    ∃ t, exec i s = .next t ∧ RaisesNoRange s t := by
  cases i with
  | nop => exact ⟨_, rfl, id⟩
  | open_ =>
    cases hrun : s.run with
    | false => exact ⟨_, exec_open_of_closed hrun, id⟩
    | true => exact ⟨_, exec_open_of_open hrun, id⟩
  | close =>
    cases hrun : s.run with
    | false => exact ⟨_, exec_close_of_closed hrun, id⟩
    | true => exact ⟨_, exec_close_of_open hrun, id⟩
  | asense | ienset => exact ⟨_, rfl, id⟩
  | errclr m =>
    refine ⟨_, rfl, fun hbit => ?_⟩
    simp only [activityCommand, State.clearErr_err, BitVec.getLsbD_and, Bool.and_eq_true, State.mark_err] at hbit
    obtain ⟨⟨hbit, -⟩, -⟩ := hbit
    exact hbit
  | mset reg d =>
    refine ⟨_, rfl, raisesNoRange_checked (decide_eq_true (Nat.not_lt.mp h)) (raisesNoRange_of_err_eq ?_)⟩
    unfold State.setMaster
    split <;> rfl
  | lrwr f d => exact ⟨_, rfl, raisesNoRange_checked (decide_eq_true (Nat.not_lt.mp h)) id⟩
  | wptr | wwr => exact ⟨_, rfl, raisesNoRange_checked (decide_eq_true (Nat.not_le.mp h)) id⟩
  | wtwr | cbwr => exact ⟨_, rfl, raisesNoRange_checked (and_decide_eq_true_iff.mpr h) id⟩
  | pbwr | cpwr | choff | chrel => exact ⟨_, rfl, raisesNoRange_channel (Nat.not_lt.mp h) fun _ => id⟩
  | ccwr c n d =>
    obtain ⟨hc, hn⟩ := not_or.mp h
    refine ⟨_, rfl, raisesNoRange_channel (Nat.not_lt.mp hc) fun _ => ?_⟩
    exact raisesNoRange_check (decide_eq_true (Nat.not_lt.mp hn)) id
  | rpnwr c j d =>
    obtain ⟨hc, hj⟩ := not_or.mp h
    refine ⟨_, rfl, raisesNoRange_channel (Nat.not_lt.mp hc) fun _ => ?_⟩
    exact raisesNoRange_check (decide_eq_true (Nat.not_le.mp hj)) id
  | nrpnwr c j d =>
    obtain ⟨hc, hj⟩ := not_or.mp h
    refine ⟨_, rfl, raisesNoRange_channel (Nat.not_lt.mp hc) fun _ => ?_⟩
    exact raisesNoRange_check (decide_eq_true (Nat.not_le.mp hj)) id
  | vsil | vcancel | vglide | ppwr => exact ⟨_, rfl, raisesNoRange_slot (Nat.not_le.mp h) id⟩
  | vstart v => exact ⟨_, rfl, raisesNoRange_slot (Nat.not_le.mp h) (raisesNoRange_startOn _ _)⟩
  | voff v m =>
    obtain ⟨hv, hm⟩ := not_or.mp h
    refine ⟨_, rfl, raisesNoRange_slot (Nat.not_le.mp hv) (raisesNoRange_check (decide_eq_true ?_) id)⟩
    rwa [low2_toNat]
  | rdg reg => exact ⟨_, congrArg done (if_pos (Nat.not_lt.mp h)), id⟩
  | rdv v f => exact ⟨_, congrArg done (if_pos ((rdv_check_iff s v f).mpr h)), id⟩

/-- Settles O9: where R352 lists a failed check the command ends in it, elsewhere no command raises the bit. -/
theorem rangeChecksAreComplete : Obligations.RangeChecksAreComplete := by
  refine ⟨fun i s => exec_of_outOfRange, fun i s => exec_read_of_outOfRange, fun i s t h he => ?_⟩
  obtain ⟨t', ht', hrange⟩ := exec_raisesNoRange h
  obtain rfl := Host.Outcome.next.inj (ht'.symm.trans he)
  exact hrange

end Sys2Proof.Machine
end

section
/-! The five channel writes and the two table writes change one value (R140 to R144, R162, R163). -/

namespace Sys2Proof.Machine
open Safety

-- One theorem at a time: each further thread would reserve a gigabyte of the check's memory.
set_option Elab.async false

/-! ## Channel writes -/

theorem State.updChan_chan_self (s : State) (c : BitVec 4) (f : Channel → Channel) :
    (s.updChan c f).chan c = f (s.chan c) := by
  rw [State.chan_updChan, if_pos rfl]

/-- A marked state with one channel file rewritten touches that channel only. -/
theorem onlyChannel_updChan (s : State) (c : BitVec 4) (f : Channel → Channel) : OnlyChannel s (s.mark.updChan c f) c :=
  ⟨rfl, fun d hd => by rw [State.chan_updChan, if_neg hd, State.mark_chan]⟩

/-- A controller number in range is kept by its cut to 7 bits (R140). -/
theorem cc_set_getElem {ctrl : BitVec 16} (h : ctrl.toNat ≤ 127) (cc : Vector (BitVec 7) 128) (x : BitVec 7)
    (n : Fin 128) : (cc.set (ctrl.setWidth 7).toFin x)[n] = if n.val = ctrl.toNat then x else cc[n] := by
  have hctrl : ctrl.toNat % 128 = ctrl.toNat := Nat.mod_eq_of_lt (Nat.lt_succ_of_le h)
  simp [Vector.getElem_set, hctrl, eq_comm]

theorem getD_set_slot {w n j : Nat} {xs : List (BitVec w)} (hj : j < xs.length) (x : BitVec w) :
    (xs.set j x).getD n 0 = if n = j then x else xs.getD n 0 := by
  simp only [List.getD_eq_getElem?_getD]
  by_cases h : n = j
  · subst h
    simp [hj]
  · rw [List.getElem?_set_ne (Ne.symm h), if_neg h]

/-- Settles O14: each write is a rewrite of its channel's file, in which one value is set. -/
theorem channelWritesChangeOneValue : Obligations.ChannelWritesChangeOneValue := by
  intro s chan value hrun hshaped hchan
  obtain ⟨-, hslots, -⟩ := hshaped
  obtain ⟨hrpn, hnrpn⟩ : (s.chan (chan.setWidth 4)).rpn.length = s.cfg.nRpn ∧
    (s.chan (chan.setWidth 4)).nrpn.length = s.cfg.nNrpn := hslots (chan.setWidth 4).toFin
  refine ⟨fun ctrl hctrl => ?_, ?_, ?_, fun slot hslot => ?_, fun slot hslot => ?_⟩
  · refine ⟨_, congrArg done (channelCommand_accepted (ok := fun _ => decide (ctrl.toNat ≤ 127)) hrun hchan
      (decide_eq_true hctrl)), onlyChannel_updChan s _ _, ?_⟩
    simp only [State.updChan_chan_self, State.mark_chan, true_and]
    exact cc_set_getElem hctrl _ _
  · exact ⟨_, congrArg done (channelCommand_ok hrun hchan _), onlyChannel_updChan s _ _, State.updChan_chan_self ..⟩
  · exact ⟨_, congrArg done (channelCommand_ok hrun hchan _), onlyChannel_updChan s _ _, State.updChan_chan_self ..⟩
  · refine ⟨_, congrArg done (channelCommand_accepted (ok := fun s => decide (slot.toNat < s.cfg.nRpn)) hrun hchan
      (decide_eq_true hslot)), onlyChannel_updChan s _ _, ?_⟩
    simp only [State.updChan_chan_self, State.mark_chan, List.length_set, true_and]
    exact ⟨hrpn, fun n _ => getD_set_slot (hrpn ▸ hslot) _⟩
  · refine ⟨_, congrArg done (channelCommand_accepted (ok := fun s => decide (slot.toNat < s.cfg.nNrpn)) hrun hchan
      (decide_eq_true hslot)), onlyChannel_updChan s _ _, ?_⟩
    simp only [State.updChan_chan_self, State.mark_chan, List.length_set, true_and]
    exact ⟨hnrpn, fun n _ => getD_set_slot (hnrpn ▸ hslot) _⟩

/-! ## Table writes -/

/-- A table write lists the element at the address it names and no other. -/
theorem State.wtWrite_read? (s : State) (i f a : Nat) (x : Word) :
    (s.wtWrite i f x).wt.read? a = if a = wtAddr i f then some x else s.wt.read? a := Memory.read?_write ..

theorem State.cbWrite_read? (s : State) (i f a : Nat) (x : Word) :
    (s.cbWrite i f x).cb.read? a = if a = cbAddr i f then some x else s.cb.read? a := Memory.read?_write ..

/-- Fields have each their own address, so a write changes one field (log entry 3). -/
theorem State.wtWrite_wtRead (s : State) {i j f g : Nat} (x : Word) (hf : f ≤ 6) (hg : g ≤ 6) :
    (s.wtWrite i f x).wtRead j g = if j = i ∧ g = f then x else s.wtRead j g := by
  have haddr : wtAddr j g = wtAddr i f ↔ j = i ∧ g = f := wtAddr_inj (Nat.lt_succ_of_le hg) (Nat.lt_succ_of_le hf)
  simp only [State.wtRead, State.wtWrite_read?, State.wtWrite_epoch, haddr]
  split <;> rfl

theorem State.cbWrite_cbRead (s : State) {i j f g : Nat} (x : Word) (hf : f ≤ 2) (hg : g ≤ 2) :
    (s.cbWrite i f x).cbRead j g = if j = i ∧ g = f then x else s.cbRead j g := by
  have haddr : cbAddr j g = cbAddr i f ↔ j = i ∧ g = f := cbAddr_inj (Nat.lt_succ_of_le hg) (Nat.lt_succ_of_le hf)
  simp only [State.cbRead, State.cbWrite_read?, State.cbWrite_epoch, haddr]
  split <;> rfl

/-- `LMODE` keeps two bits, the other descriptor fields the whole word (R111, R162). -/
theorem descFieldValue_eq (f : Nat) (d : Word) :
    descFieldValue f d = if f = 4 then BitVec.ofNat 32 (d.toNat % 4) else d := by
  have hmode : (low2 d).setWidth 32 = BitVec.ofNat 32 (d.toNat % 4) := by
    apply BitVec.eq_of_toNat_eq
    simp [low2]
  rw [descFieldValue, hmode]

/-- Settles O17: each write lists one element, at the address of the field it names, and the fields have each their own. -/
theorem tableWritesChangeOneField : Obligations.TableWritesChangeOneField := by
  refine ⟨fun s field index d hf hi => ?_, fun s field index d hf hi => ?_⟩
  · refine ⟨_, congrArg done (activityCommand_accepted ?_), rfl, fun a ha => ?_, fun i f hf' => ?_⟩
    · simp [hf, hi]
    · rw [State.wtWrite_read?, if_neg ha, State.mark_wt]
    · rw [State.wtWrite_wtRead _ _ hf hf', descFieldValue_eq, State.mark_wtRead]
      split
      · rename_i hsame
        obtain ⟨-, hfield⟩ := hsame
        rw [hfield]
      · rfl
  · refine ⟨_, congrArg done (activityCommand_accepted ?_), rfl, fun a ha => ?_, fun i f hf' => ?_⟩
    · simp [hf, hi]
    · rw [State.cbWrite_read?, if_neg ha, State.mark_cb]
    · rw [State.cbWrite_cbRead _ _ hf hf', State.mark_cbRead]

end Sys2Proof.Machine
end

section
/-! The source selectors and the registers they read (R107, R212). -/

namespace Sys2Proof.Machine
open Safety

-- One theorem at a time: each further thread would reserve a gigabyte of the check's memory.
set_option Elab.async false

/-- A selector by its category and index (R107). -/
theorem Source.ofSelector_of_toNat {cfg : Config} {sel : BitVec 16} {cat idx : Nat} (h : sel.toNat = 4096 * cat + idx)
    (hidx : idx < 4096) : Source.ofSelector cfg sel = Source.ofCatIdx cfg cat idx := by
  have hcat : sel.toNat / 4096 = cat := by omega
  have hmod : sel.toNat % 4096 = idx := by omega
  rw [Source.ofSelector_eq, hcat, hmod]

/-! The four sources whose selectors are a range (R212, R222 b). -/

theorem sourceValue_cc (s : State) (v : Voice) {cfg : Config} {sel : BitVec 16} {n : Fin 128}
    (h : sel.toNat = 0x2000 + n.val) :
    sourceValue s v (Source.ofSelector cfg sel) = 256 * ((s.chan v.ident.chan).cc[n]).toNat := by
  have hn := n.isLt
  rw [Source.ofSelector_of_toNat (cat := 2) h (by omega)]
  simp [Source.ofCatIdx, Nat.le_of_lt_succ hn, sourceValue, List.getD_eq_getElem?_getD]

theorem sourceValue_rpn (s : State) (v : Voice) {cfg : Config} {sel : BitVec 16} {j : Nat} {x : BitVec 14}
    (hj : j < cfg.nRpn) (hidx : j < 4096) (h : sel.toNat = 0x3000 + j) (hx : (s.chan v.ident.chan).rpn[j]? = some x) :
    sourceValue s v (Source.ofSelector cfg sel) = 2 * x.toNat := by
  rw [Source.ofSelector_of_toNat (cat := 3) h hidx]
  simp [Source.ofCatIdx, hj, sourceValue, List.getD_eq_getElem?_getD, hx]

theorem sourceValue_nrpn (s : State) (v : Voice) {cfg : Config} {sel : BitVec 16} {j : Nat} {x : BitVec 14}
    (hj : j < cfg.nNrpn) (hidx : j < 4096) (h : sel.toNat = 0x4000 + j) (hx : (s.chan v.ident.chan).nrpn[j]? = some x) :
    sourceValue s v (Source.ofSelector cfg sel) = 2 * x.toNat := by
  rw [Source.ofSelector_of_toNat (cat := 4) h hidx]
  simp [Source.ofCatIdx, hj, sourceValue, List.getD_eq_getElem?_getD, hx]

theorem sourceValue_of_badSelector (s : State) (v : Voice) {cfg : Config} {sel : BitVec 16} (h : badSelector cfg sel) :
    sourceValue s v (Source.ofSelector cfg sel) = 0 := by
  rw [(Source.ofSelector_eq_bad_iff cfg sel).mpr h]
  rfl

/-- Settles O43: selector by selector, the category and the index name the register. -/
theorem sourcesReadTheirRegisters : Obligations.SourcesReadTheirRegisters := by
  intro s v sel _
  refine ⟨_, rfl, ?_, ?_, ?_, fun n => sourceValue_cc s v, fun j x => sourceValue_rpn s v,
    fun j x => sourceValue_nrpn s v, ?_, ?_, ?_, ?_, ?_, ?_, ?_, ?_, ?_, ?_, ?_, sourceValue_of_badSelector s v,
    fun hs hv => sourceValue_le hs hv _⟩
  case refine_5 | refine_6 =>
    -- Velocity and key: the forced register, or the voice's own.
    rintro rfl
    exact congrArg (256 * ·) (apply_ite BitVec.toNat ..)
  all_goals
    rintro rfl
    rfl

end Sys2Proof.Machine
end

section
/-! The system commands: `NOP` and the word 0, the master registers, the enables and the error latch, and the global reads
(R120, R123 to R127, R359). -/

namespace Sys2Proof.Machine
open Safety

-- One theorem at a time: each further thread would reserve a gigabyte of the check's memory.
set_option Elab.async false

/-! ## `NOP` -/

/-- Opcode 0 reads no other field of its word (R102, R120). -/
theorem decode_of_op_zero {w : CmdWord} (h : w.toNat / 2 ^ 56 = 0) : decode w = .ok .nop := by
  have hop : (opField w).toNat = 0 := (opField_toNat w).trans h
  unfold decode
  simp only [hop]

/-- Settles O6: the arm of `NOP` is the identity, and opcode 0 selects it. -/
theorem nopChangesNothing : Obligations.NopChangesNothing :=
  ⟨fun _ => rfl, fun _ => decode_of_op_zero⟩

/-! ## The master registers -/

/-- The register number selects the one register that is written (R123). -/
theorem State.setMaster_eq (s : State) {n : Nat} (h : n ≤ 3) (x : BitVec 16) :
    s.setMaster n x = { s with
      mvol := if n = 0 then x else s.mvol
      mbal := if n = 1 then x else s.mbal
      mfine := if n = 2 then x else s.mfine
      mcoarse := if n = 3 then x else s.mcoarse } := by
  match n, h with
  | 0, _ | 1, _ | 2, _ | 3, _ => rfl

/-- 32768 fits the 16 bits of a master register, so nothing is cut off after saturation (R123). -/
theorem saturated_toNat (d : Word) : (saturated d).toNat = min d.toNat 32768 := by
  have hfits : min d.toNat 32768 < 2 ^ 16 := lt_of_le_of_lt (Nat.min_le_right ..) (by decide)
  exact Nat.mod_eq_of_lt hfits

theorem exec_mset_of_le (s : State) {reg : BitVec 16} (h : reg.toNat ≤ 3) (value : BitVec 32) :
    exec (.mset reg value) s = .next (s.mark.setMaster reg.toNat (saturated value)) :=
  congrArg done (activityCommand_accepted (ok := fun _ => decide (reg.toNat ≤ 3)) (decide_eq_true h))

/-- Settles O11: the register written is the one named, the value is `saturated`. -/
theorem msetSaturates : Obligations.MsetSaturates := by
  intro s reg value hreg
  have hexec := (exec_mset_of_le s hreg value).trans (congrArg done (s.mark.setMaster_eq hreg (saturated value)))
  exact ⟨_, saturated value, hexec, saturated_toNat value, rfl, rfl, rfl, rfl, rfl⟩

/-! ## The enables and the error latch -/

/-- The implemented bits by number (R350). -/
theorem getLsbD_errMask : ∀ n < 16, errMask.getLsbD n = decide (n ≤ 5 ∨ n = 8 ∨ n = 9) := by decide

theorem getLsbD_low16 (d : Word) {n : Nat} (h : n < 16) : (low16 d).getLsbD n = d.getLsbD n := by
  simp [low16, h]

/-- A bit stays through `ERRCLR` if it is implemented and the mask does not name it (R125). -/
theorem State.getLsbD_clearErr_err (s : State) (d : Word) {n : Nat} (h : n < 16) :
    (s.clearErr d).err.getLsbD n = (s.err.getLsbD n && !d.getLsbD n && decide (n ≤ 5 ∨ n = 8 ∨ n = 9)) := by
  rw [State.clearErr_err, BitVec.getLsbD_and, BitVec.getLsbD_and, BitVec.getLsbD_not, getLsbD_errMask n h,
    getLsbD_low16 d h, decide_eq_true h, Bool.true_and]

/-- `IENSET` keeps the implemented bits of its mask (R126). -/
theorem getLsbD_low16_and_errMask (d : Word) {n : Nat} (h : n < 16) :
    (low16 d &&& errMask).getLsbD n = (d.getLsbD n && decide (n ≤ 5 ∨ n = 8 ∨ n = 9)) := by
  rw [BitVec.getLsbD_and, getLsbD_errMask n h, getLsbD_low16 d h]

/-- `irq` in terms of single bits (R359). -/
theorem State.irq_iff (s : State) : s.irq = true ↔ ∃ n < 16, s.err.getLsbD n = true ∧ s.ien.getLsbD n = true := by
  rw [State.irq, decide_eq_true_iff]
  constructor
  · intro hne
    by_contra hnone
    refine hne (BitVec.eq_of_getLsbD_eq fun n hn => ?_)
    have hbit : ¬ (s.err.getLsbD n = true ∧ s.ien.getLsbD n = true) := fun h => hnone ⟨n, hn, h⟩
    simpa using hbit
  · rintro ⟨n, -, herr, hien⟩ hzero
    have hbit : (s.err &&& s.ien).getLsbD n = true := by rw [BitVec.getLsbD_and, herr, hien, Bool.and_true]
    simp [hzero] at hbit

/-- Settles O12: the writes bit by bit, and `irq` from the bits of the two registers. -/
theorem enablesAndErrorsAreWritten : Obligations.EnablesAndErrorsAreWritten :=
  ⟨fun _ _ => rfl,
    fun s d => ⟨_, rfl, rfl, fun _ hn => s.mark.getLsbD_clearErr_err d hn⟩,
    fun _ d => ⟨_, rfl, rfl, fun _ hn => getLsbD_low16_and_errMask d hn⟩,
    State.irq_iff⟩

/-! ## The global reads -/

/-- A field above another counts in units of the lower one's size. -/
theorem toNat_append_add {m n : Nat} (x : BitVec m) (y : BitVec n) : (x ++ y).toNat = x.toNat * 2 ^ n + y.toNat := by
  rw [BitVec.toNat_append, ← Nat.shiftLeft_add_eq_or_of_lt y.isLt, Nat.shiftLeft_eq]

/-- The fields of `STATUS` at their places (R127). -/
theorem State.status_toNat (s : State) :
    s.status.toNat = s.run.toNat + 2 * s.idle.toNat + 4 * s.asen.toNat + 16 * s.silcnt.toNat + 256 * s.cmdseen.toNat +
      512 * s.outEmpty.toNat := by
  simp only [State.status, toNat_append_add, BitVec.toNat_ofBool, BitVec.toNat_ofNat]
  omega

/-- The slots by number are the slots of the list. -/
theorem State.voices_eq_map_voice (s : State) : s.voices = (List.range s.voices.length).map s.voice := by
  refine List.ext_getElem (by simp) fun v hv _ => ?_
  simp [State.voice, List.getD_eq_getElem?_getD, hv]

theorem State.busyCount_eq (s : State) :
    s.busyCount = (List.range s.voices.length).countP fun v => (s.voice v).act || (s.voice v).pend.valid := by
  have hcount := congrArg (List.countP Voice.busy) s.voices_eq_map_voice
  rw [List.countP_map] at hcount
  exact hcount

theorem exec_rdg_of_le (s : State) {reg : BitVec 16} (h : reg.toNat ≤ 12) :
    exec (.rdg reg) s = .next { s with rsp := s.globalWord reg.toNat } :=
  congrArg done (if_pos h)

/-- Settles O13: row by row of the table; `STATUS`, `BUSY` and the pointer have their own lemmas, the other rows hold a
register of at most 32 bits. -/
theorem rdgAnswersItsTable : Obligations.RdgAnswersItsTable := by
  refine ⟨fun s reg hreg => ⟨_, exec_rdg_of_le s hreg, ?_⟩, fun s reg hreg => exec_read_of_outOfRange hreg rfl⟩
  refine ⟨?id, ?status, ?err, ?ien, ?tickcnt, ?mvol, ?mbal, ?mfine, ?mcoarse, ?busy, ?nv, ?wptr, ?ascnt⟩ <;> rintro rfl
  case id | tickcnt | nv => rfl
  case status => exact s.status_toNat
  case err | ien | mvol | mbal | mfine | mcoarse | ascnt => exact BitVec.toNat_setWidth_of_le (by decide)
  case busy => exact congrArg (BitVec.ofNat 32) s.busyCount_eq
  case wptr => exact fun hptr => (BitVec.toNat_setWidth ..).trans (Nat.mod_eq_of_lt hptr)

end Sys2Proof.Machine
end

section
/-! `CHOFF` and `CHREL` slot by slot, and the watchdog's all-sound-off through the tick it begins (R145 to R147, R190, R191,
R302, R303). -/

namespace Sys2Proof.Machine
open Safety

-- One theorem at a time: each further thread would reserve a gigabyte of the check's memory.
set_option Elab.async false

/-! ## `ChannelOff` for one slot -/

theorem Voice.dropPend_eq (v : Voice) (c : BitVec 4) : v.dropPend c =
    if v.pend.valid = true ∧ v.pend.launch.chan = c then { v with pend := { v.pend with valid := false } } else v := by
  simp only [Voice.dropPend, Bool.and_eq_true, decide_eq_true_eq]

/-- Dropping a queued record touches nothing that decides what becomes of the voice. -/
theorem Voice.dropPend_act_ident_flags (v : Voice) (c : BitVec 4) :
    (v.dropPend c).act = v.act ∧ (v.dropPend c).ident = v.ident ∧ (v.dropPend c).flags = v.flags := by
  unfold Voice.dropPend
  split <;> exact ⟨rfl, rfl, rfl⟩

theorem Voice.offVoice_eq (v : Voice) (c : BitVec 4) (m : Bool) : v.offVoice c m =
    if v.act = true ∧ v.ident.chan = c then
      if m = true then silenced v else if v.flags.on = true then released v else v
    else v := by
  simp only [Voice.offVoice, Bool.and_eq_true, decide_eq_true_eq, Voice.silence_eq, Voice.releaseNote_eq]

/-- `ChannelOff(c, m)` drops the record, then turns off the voice as it stood (R147). -/
theorem Voice.channelOff_eq (v : Voice) (c : BitVec 4) (m : Bool) : v.channelOff c m =
    if v.act = true ∧ v.ident.chan = c then
      if m = true then silenced (v.dropPend c)
      else if v.flags.on = true then released (v.dropPend c) else v.dropPend c
    else v.dropPend c := by
  obtain ⟨hact, hident, hflags⟩ := v.dropPend_act_ident_flags c
  rw [Voice.channelOff, Voice.offVoice_eq, hact, hident, hflags]

/-! ## `CHREL` for one slot -/

/-- A voice with the marks that a `CHREL` mask names cleared (R146). -/
def Voice.clearMarks (v : Voice) (m0 m1 : Bool) : Voice :=
  { v with flags := { v.flags with sus := v.flags.sus && !m0, sost := v.flags.sost && !m1 } }

/-- `CHREL` clears the named marks of an active voice of its channel, and with the last of them releases the note (R146). -/
theorem Voice.channelRelease_eq (v : Voice) (c : BitVec 4) (m0 m1 : Bool) : v.channelRelease c m0 m1 =
    if v.act = true ∧ v.ident.chan = c then
      if ((m0 = true ∧ v.flags.sus = true) ∨ (m1 = true ∧ v.flags.sost = true)) ∧
        (v.clearMarks m0 m1).flags.sus = false ∧ (v.clearMarks m0 m1).flags.sost = false
      then released (v.clearMarks m0 m1) else v.clearMarks m0 m1
    else v := by
  unfold Voice.channelRelease
  refine if_congr (by simp) (if_congr ?_ (Voice.releaseNote_eq _) rfl) rfl
  simp only [Voice.clearMarks, Bool.and_eq_true, Bool.or_eq_true, Bool.not_eq_true', and_assoc]

/-! ## The two commands -/

/-- A command that marks activity and rewrites every slot by itself leaves the rest of the machine alone. -/
theorem marked_mapVoices {s t : State} {f : Voice → Voice} (ht : { s.mark with voices := s.voices.map f } = t) :
    { t with voices := s.voices } = marked s ∧ t.voices.length = s.voices.length ∧
      ∀ v < s.voices.length, t.voice v = f (s.voice v) := by
  subst ht
  exact ⟨rfl, List.length_map .., fun v hv => s.voice_map f hv _ rfl⟩

theorem exec_choff_of_le {s : State} {chan : BitVec 8} (hrun : s.run = true) (hchan : chan.toNat ≤ 15) (d : BitVec 32) :
    exec (.choff chan d) s = .next { s.mark with
      voices := s.voices.map fun v => v.channelOff (chan.setWidth 4) (d.getLsbD 0) } :=
  congrArg done (channelCommand_ok hrun hchan _)

theorem exec_chrel_of_le {s : State} {chan : BitVec 8} (hrun : s.run = true) (hchan : chan.toNat ≤ 15) (d : BitVec 32) :
    exec (.chrel chan d) s = .next { s.mark with
      voices := s.voices.map fun v => v.channelRelease (chan.setWidth 4) (d.getLsbD 0) (d.getLsbD 1) } :=
  congrArg done (channelCommand_ok hrun hchan _)

/-- Settles O15: both commands rewrite the slots one by one, `CHOFF` by `ChannelOff` and `CHREL` by clearing marks. -/
theorem channelOffAndRelease : Obligations.ChannelOffAndRelease := by
  intro s chan d hrun hchan
  refine ⟨⟨_, exec_choff_of_le hrun hchan d, ?_⟩, ⟨_, exec_chrel_of_le hrun hchan d, ?_⟩⟩
  · obtain ⟨hframe, hlength, hvoice⟩ := marked_mapVoices (s := s) rfl
    refine ⟨hframe, hlength, fun v hv => ⟨(s.voice v).dropPend _, Voice.dropPend_eq .., ?_⟩⟩
    rw [hvoice v hv, Voice.channelOff_eq]
  · obtain ⟨hframe, hlength, hvoice⟩ := marked_mapVoices (s := s) rfl
    refine ⟨hframe, hlength, fun v hv => ⟨fun hother => ?_, fun hact hof => ⟨(s.voice v).clearMarks _ _, rfl, ?_⟩⟩⟩
    · rw [hvoice v hv, Voice.channelRelease_eq, if_neg fun ⟨hact, hof⟩ => hother.elim (by simp [hact]) (· hof)]
    · rw [hvoice v hv, Voice.channelRelease_eq, if_pos ⟨hact, hof⟩]

/-! ## The watchdog -/

/-- The watchdog turns an active voice off (R191, R302). -/
theorem Voice.allOff_flags_of_act {v : Voice} (hact : v.act = true) :
    v.allOff.flags.silencing = true ∧ v.allOff.flags.on = false := by
  simp [Voice.allOff, hact]

/-- When the watchdog fires the promotion finds no record to start (R302, R303). -/
theorem voiceAtControl_eq_allOff {s : State} (hf : s.watchdogFires = true) (v : Voice) : voiceAtControl s v = v.allOff := by
  have hpend : v.allOff.pend.valid = false := by
    unfold Voice.allOff
    cases hp : v.pend.valid <;> simp [hp]
  simp [voiceAtControl, hf, promoteVoice, hpend]

theorem controlVoice_silencing_on (s : State) (v : Voice) :
    (controlVoice s v).flags.silencing = v.flags.silencing ∧ (controlVoice s v).flags.on = v.flags.on := by
  unfold controlVoice
  split
  · rw [controlLogic_flags]; exact ⟨rfl, rfl⟩
  · exact ⟨rfl, rfl⟩

/-- The control and audio logic of a tick neither release a note nor begin or end its silencing (R310 to R325). -/
theorem tick_silencing_on (s : State) {v : Nat} (hv : v < s.voices.length) :
    ((tick s).voice v).flags.silencing = (voiceAtControl s (s.voice v)).flags.silencing ∧
    ((tick s).voice v).flags.on = (voiceAtControl s (s.voice v)).flags.on := by
  obtain ⟨ctr, htick⟩ := tick_voice s hv
  have hcontrol := controlVoice_silencing_on s (voiceAtControl s (s.voice v))
  rw [htick]
  split
  · rw [Voice.finish_eq]; exact hcontrol
  · exact hcontrol

/-- Settles O31: step 2 empties every queue and silences every voice, and no later step of the tick undoes either. -/
theorem watchdogForcesAllSoundOff : Obligations.WatchdogForcesAllSoundOff := by
  rintro s t ⟨hhead, hrun, hempty, hidle⟩ hdog hstep v hv
  obtain ⟨rest, hs⟩ := List.head?_eq_some_iff.mp hhead
  obtain rfl : tick { s with sched := rest } = t :=
    Host.Outcome.next.inj ((step_tick hs hrun hempty hidle).symm.trans hstep)
  have hvoice : State.voice { s with sched := rest } v = s.voice v := rfl
  have hf : State.watchdogFires { s with sched := rest } = true := (watchdogFires_iff _).mpr hdog
  have hv : v < ({ s with sched := rest } : State).voices.length := hv
  rw [← hvoice]
  generalize ({ s with sched := rest } : State) = u at *
  obtain ⟨hkeep, hdrop⟩ := voiceAtControl_of_fires hf (u.voice v)
  obtain ⟨hpend, hstarts⟩ := tick_act_pend u hv
  obtain ⟨hsilencing, hon⟩ := tick_silencing_on u hv
  refine ⟨by rw [hpend, hdrop], fun hfree => ?_, fun hact => ?_⟩
  · exact Bool.eq_false_of_not_eq_true fun hact => Bool.false_ne_true (hfree.symm.trans (hkeep.symm.trans (hstarts hact)))
  · rw [hsilencing, hon, voiceAtControl_eq_allOff hf]
    exact Voice.allOff_flags_of_act hact

end Sys2Proof.Machine
end

section
/-! Every step keeps the slot protocol, keeps every sounding voice inside its view and its blocks, and keeps the record of
rewritten samples inside live views (R180, R184, R271, R272, R274, R385, R386). -/

namespace Sys2Proof.Machine
open Safety

-- One theorem at a time: each further thread would reserve a gigabyte of the check's memory.
set_option Elab.async false

/-! ## What a command leaves of a sounding voice -/

/-- A command starts a validated record, or leaves a slot its voice, its view, its blocks and its rewritten samples, and of
its read position changes at most `LOOPEN`, as a release does (R180, R190). -/
theorem VoiceEdit.playing {s : State} {v w : Voice} (h : VoiceEdit s v w) :
    (validate s s.lr = none ∧ w = initVoice s s.lr) ∨
      (w.act = v.act ∧ w.desc = v.desc ∧ w.stale = v.stale ∧ w.ident = { v.ident with note := w.ident.note } ∧
        (w.pos = v.pos ∨ w.pos = v.releaseNote.pos)) := by
  cases h with
  | off c m =>
    right; unfold Voice.channelOff Voice.offVoice Voice.dropPend
    split_ifs <;> simp [Voice.silence]
  | rel c m0 m1 =>
    right; unfold Voice.channelRelease
    dsimp only
    split_ifs <;> simp [Voice.releaseNote]
  | note mode =>
    right; unfold Voice.noteOff
    split
    · split <;> simp
    · simp
  | sil h => exact .inr ⟨rfl, rfl, rfl, rfl, .inr rfl⟩
  | cancel => exact .inr ⟨rfl, rfl, rfl, rfl, .inl rfl⟩
  | glide r => right; unfold Voice.glideTo; split <;> exact ⟨rfl, rfl, rfl, rfl, .inl rfl⟩
  | press x => exact .inr ⟨rfl, rfl, rfl, rfl, .inl rfl⟩
  | same => exact .inr ⟨rfl, rfl, rfl, rfl, .inl rfl⟩
  | take h hp hv => exact .inr ⟨rfl, rfl, rfl, rfl, .inr rfl⟩
  | init h hp hv => exact .inl ⟨hv, rfl⟩

/-! ## The slot protocol -/

/-- The protocol reads `ACT`, `PEND.VALID`, `SILENCING` and `ON` (R37). -/
theorem voiceProtocol_congr {v w : Voice} (h : VoiceProtocol v) (hact : w.act = true → v.act = true)
    (hpend : w.pend.valid = true → v.pend.valid = true) (hsil : w.flags.silencing = v.flags.silencing)
    (hon : w.flags.on = true → v.flags.on = true) : VoiceProtocol w := by
  obtain ⟨hqueue, hheld⟩ := h
  refine ⟨fun ha hp => hsil.trans (hqueue (hact ha) (hpend hp)), fun hs => ?_⟩
  exact Bool.eq_false_of_not_eq_true fun ho => Bool.false_ne_true ((hheld (hsil.symm.trans hs)).symm.trans (hon ho))

/-- A silenced voice follows the protocol, whatever is queued (R191). -/
theorem voiceProtocol_of_silenced {v : Voice} (hsil : v.flags.silencing = true) (hon : v.flags.on = false) :
    VoiceProtocol v :=
  ⟨fun _ _ => hsil, fun _ => hon⟩

theorem voiceProtocol_initVoice (s : State) (r : LaunchRec) : VoiceProtocol (initVoice s r) := by
  simp [VoiceProtocol, initVoice, freshVoice, Pend.none]

theorem voiceProtocol_dropPend {v : Voice} (h : VoiceProtocol v) (c : BitVec 4) : VoiceProtocol (v.dropPend c) := by
  rw [Voice.dropPend_eq]
  split
  · exact voiceProtocol_congr h id nofun rfl id
  · exact h

theorem voiceProtocol_released {v : Voice} (h : VoiceProtocol v) : VoiceProtocol (released v) :=
  voiceProtocol_congr h id id rfl nofun

theorem voiceProtocol_channelOff {v : Voice} (h : VoiceProtocol v) (c : BitVec 4) (m : Bool) :
    VoiceProtocol (v.channelOff c m) := by
  rw [Voice.channelOff_eq]
  split_ifs
  · exact voiceProtocol_of_silenced rfl rfl
  · exact voiceProtocol_released (voiceProtocol_dropPend h c)
  · exact voiceProtocol_dropPend h c
  · exact voiceProtocol_dropPend h c

theorem voiceProtocol_channelRelease {v : Voice} (h : VoiceProtocol v) (c : BitVec 4) (m0 m1 : Bool) :
    VoiceProtocol (v.channelRelease c m0 m1) := by
  have hmarks : VoiceProtocol (v.clearMarks m0 m1) := voiceProtocol_congr h id id rfl id
  rw [Voice.channelRelease_eq]
  split_ifs
  · exact voiceProtocol_released hmarks
  · exact hmarks
  · exact h

theorem voiceProtocol_noteOff {v : Voice} (h : VoiceProtocol v) (mode : Nat) : VoiceProtocol (v.noteOff mode) := by
  unfold Voice.noteOff
  split
  · split
    · exact Voice.releaseNote_eq v ▸ voiceProtocol_released h
    · exact voiceProtocol_congr h id id rfl id
    · exact voiceProtocol_congr h id id rfl id
  · exact h

theorem voiceProtocol_edit {s : State} {v w : Voice} (h : VoiceProtocol v) (he : VoiceEdit s v w) : VoiceProtocol w := by
  cases he with
  | off c m => exact voiceProtocol_channelOff h c m
  | rel c m0 m1 => exact voiceProtocol_channelRelease h c m0 m1
  | note mode => exact voiceProtocol_noteOff h mode
  | sil ha => exact voiceProtocol_of_silenced rfl rfl
  | cancel => exact voiceProtocol_congr h id nofun rfl id
  | glide r =>
    unfold Voice.glideTo
    split
    · exact voiceProtocol_congr h id id rfl id
    · exact h
  | press x => exact voiceProtocol_congr h id id rfl id
  | same => exact h
  | take ha hp hv => exact voiceProtocol_of_silenced rfl rfl
  | init ha hp hv => exact voiceProtocol_initVoice s s.lr

/-- Every change of a slot keeps the protocol. -/
theorem voiceProtocol_keepsVoice : KeepsVoice fun _ => VoiceProtocol where
  reset _ := voiceProtocol_reset
  edit _ _ _ he h := voiceProtocol_edit h he
  promote s v h := by
    unfold promoteVoice
    split
    · split
      · exact voiceProtocol_initVoice s _
      · exact voiceProtocol_congr h id nofun rfl id
    · exact h
  control s v _ h := by
    refine voiceProtocol_congr h ?_ ?_ ?_ ?_ <;> simp [controlLogic_flags]
  finish s v ctr _ h := by
    rw [Voice.finish_eq]
    exact voiceProtocol_congr h (fun ha => (Bool.and_eq_true_iff.mp ha).1) id rfl id
  rewrite _ v a old h := by
    refine voiceProtocol_congr h ?_ ?_ ?_ ?_ <;> simp

/-! ## The read position -/

/-- A release opens a `RELEASE` loop and moves nothing (R190). -/
theorem posInView_releaseNote {v : Voice} (h : PosInView v.desc v.pos) : PosInView v.desc v.releaseNote.pos := by
  obtain ⟨hlen, hloop, hdown, hpingpong⟩ := h
  have hopen : v.releaseNote.pos.loopen = true → v.pos.loopen = true := by
    simp only [Voice.releaseNote_pos, Bool.and_eq_true]
    exact And.left
  have hkept : v.desc.lmode = .pingpong → v.releaseNote.pos.loopen = v.pos.loopen := by
    intro hmode
    simp [hmode]
  refine ⟨hlen, fun ho => hloop (hopen ho), fun hd => ?_, fun hm => (hkept hm).trans (hpingpong hm)⟩
  obtain ⟨hmode, hin⟩ := hdown hd
  exact ⟨hmode, (hkept hmode).trans hin⟩

/-- The frames of a chunk leave the position in its view (R276, R320). -/
theorem posInView_renderFrames {s : State} {v : Voice} {n : Nat} (hd : DescPlayable n v.desc) (k j : Nat) {p : Pos}
    (ctr : Nat) (h : PosInView v.desc p) : PosInView v.desc (renderFrames s v k j p ctr).pos := by
  induction k generalizing j p ctr with
  | zero => exact h
  | succ k ih => exact ih _ _ (PosInView.advance hd _ h)

/-- A started voice stands at the beginning of its view (R185). -/
theorem posInView_start {d : Desc} {n : Nat} (hd : DescPlayable n d) :
    PosInView d { srci := 0, frac := 0, dir := .up, loopen := !decide (d.lmode = .off), ended := false } := by
  obtain ⟨hlen, -, -, hloop⟩ := hd
  refine ⟨hlen, fun ho => ?_, nofun, fun hm => by simp [hm]⟩
  have hmode : d.lmode ≠ .off := by simpa using ho
  obtain ⟨hllen, -⟩ := hloop hmode
  exact ⟨hmode, Nat.lt_of_lt_of_le hllen (Nat.le_add_left ..)⟩

/-! ## A voice inside its view and its blocks -/

theorem voicePlaysInView_initVoice {s : State} {r : LaunchRec} (h : validate s r = none) :
    VoicePlaysInView s.cfg (initVoice s r) := by
  obtain ⟨⟨hwt, hdesc⟩, hblocks⟩ := (validate_eq_none_iff s r).mp h
  intro _
  simp only [initVoice, freshVoice, Voice.startLfos_desc, Voice.startLfos_pos, Voice.startLfos_ident, evalTick_desc,
    evalTick_pos, evalTick_ident, evalInit_desc, evalInit_pos, evalInit_ident]
  exact ⟨hdesc, posInView_start hdesc, hwt, hblocks⟩

/-- The statement reads `ACT`, the view, the position and the block range. -/
theorem voicePlaysInView_congr {cfg : Config} {v w : Voice} (h : VoicePlaysInView cfg v) (hact : w.act = true → v.act = true)
    (hdesc : w.desc = v.desc) (hwt : w.ident.wtidx = v.ident.wtidx) (hbase : w.ident.cbbase = v.ident.cbbase)
    (hcnt : w.ident.cbcnt = v.ident.cbcnt)
    (hpos : DescPlayable cfg.waveSize v.desc → PosInView v.desc v.pos → PosInView v.desc w.pos) :
    VoicePlaysInView cfg w := by
  intro ha
  obtain ⟨hplay, hview, hrest⟩ := h (hact ha)
  rw [hdesc, hwt, hbase, hcnt]
  exact ⟨hplay, hpos hplay hview, hrest⟩

theorem voicePlaysInView_edit {s : State} {v w : Voice} (h : VoicePlaysInView s.cfg v) (he : VoiceEdit s v w) :
    VoicePlaysInView s.cfg w := by
  rcases he.playing with ⟨hvalid, rfl⟩ | ⟨hact, hdesc, -, hident, hpos⟩
  · exact voicePlaysInView_initVoice hvalid
  · refine voicePlaysInView_congr h (fun ha => hact.symm.trans ha) hdesc ?_ ?_ ?_ fun _ hview => ?_
    · rw [hident]
    · rw [hident]
    · rw [hident]
    · rcases hpos with hp | hp <;> rw [hp]
      · exact hview
      · exact posInView_releaseNote hview

/-- Every change of a slot keeps its voice inside its view and its blocks. -/
theorem voicePlaysInView_keepsVoice : KeepsVoice VoicePlaysInView where
  reset := voicePlaysInView_reset
  edit _ _ _ he h := voicePlaysInView_edit h he
  promote s v h := by
    unfold promoteVoice
    split
    · split
      · rename_i hvalid; exact voicePlaysInView_initVoice hvalid
      · exact voicePlaysInView_congr h id rfl rfl rfl rfl fun _ => id
    · exact h
  control s v _ h := by
    refine voicePlaysInView_congr h ?_ ?_ ?_ ?_ ?_ fun _ => ?_ <;> simp
  finish s v ctr _ h := by
    rw [Voice.finish_eq]
    exact voicePlaysInView_congr h (fun ha => (Bool.and_eq_true_iff.mp ha).1) rfl rfl rfl rfl fun hd hp =>
      posInView_renderFrames hd _ _ _ hp
  rewrite cfg v a old h := by
    refine voicePlaysInView_congr h ?_ ?_ ?_ ?_ ?_ fun _ => ?_ <;> simp

/-! ## The record of rewritten samples -/

/-- The record of one voice lies in its view, and only an active voice has one (R386). -/
def StaleInView (v : Voice) : Prop :=
  ∀ e ∈ v.stale, v.act = true ∧ v.desc.base.toNat ≤ e.1 ∧ e.1 < v.desc.base.toNat + v.desc.len.toNat

theorem staleInView_of_nil {v : Voice} (h : v.stale = []) : StaleInView v := by
  simp [StaleInView, h]

theorem StaleInView.congr {v w : Voice} (h : StaleInView v) (hact : w.act = v.act) (hdesc : w.desc = v.desc)
    (hstale : w.stale = v.stale) : StaleInView w := by
  unfold StaleInView
  rw [hact, hdesc, hstale]
  exact h

theorem staleInView_initVoice (s : State) (r : LaunchRec) : StaleInView (initVoice s r) :=
  staleInView_of_nil (by simp [initVoice, freshVoice])

/-- A rewritten element is noted only inside the view of an active voice (R386). -/
theorem StaleInView.noteRewrite {v : Voice} (h : StaleInView v) (a : Nat) (old : BitVec 16) :
    StaleInView (v.noteRewrite a old) := by
  unfold StaleInView
  rw [Voice.noteRewrite_stale_of_view, Voice.noteRewrite_act, Voice.noteRewrite_desc]
  split
  · rename_i hlive
    exact List.forall_mem_cons.mpr ⟨hlive, h⟩
  · exact h

/-- Every change of a slot keeps its record in a live view: what ends a voice, or starts one, empties it. -/
theorem staleInView_keepsVoice : KeepsVoice fun _ => StaleInView where
  reset _ := staleInView_of_nil rfl
  edit s v w he h := by
    rcases he.playing with ⟨-, rfl⟩ | ⟨hact, hdesc, hstale, -, -⟩
    · exact staleInView_initVoice s s.lr
    · exact h.congr hact hdesc hstale
  promote s v h := by
    unfold promoteVoice
    split
    · split
      · exact staleInView_initVoice s _
      · exact h.congr rfl rfl rfl
    · exact h
  control s v _ h := h.congr (by simp) (by simp) (by simp)
  finish s v ctr _ h := by
    rw [Voice.finish_eq]
    generalize (renderVoice s v ctr).pos = p
    cases hend : v.flags.final || p.ended
    · exact h.congr (by simp) rfl (by simp)
    · exact staleInView_of_nil (by simp)
  rewrite _ v a old h := h.noteRewrite a old

/-- Settles O57: each of the three is a property of one slot, and every change of a slot keeps it. -/
theorem voicesStayInView : Obligations.VoicesStayInView := fun _ _ hprotocol hview hstale hstep =>
  ⟨voiceProtocol_keepsVoice.keeps.step hprotocol hstep, voicePlaysInView_keepsVoice.keeps.step hview hstep,
    staleInView_keepsVoice.keeps.step hstale hstep⟩

end Sys2Proof.Machine
end

section
/-! The commands of one slot and the launch record (R181, R182, R186, R188 to R195), and the reads of `RDV` (R199). -/

namespace Sys2Proof.Machine
open Safety

-- One theorem at a time: each further thread would reserve a gigabyte of the check's memory.
set_option Elab.async false

/-! ## The launch record -/

theorem exec_lrwr_of_le (s : State) {field : BitVec 8} (h : field.toNat ≤ 10) (d : BitVec 32) :
    exec (.lrwr field d) s = .next { s.mark with lr := s.lr.setField field.toNat d } :=
  congrArg done (checkRange_ok (decide_eq_true h) _ s.mark)

/-- `LRWR` field by field: the one it numbers takes the low bits of `D`, the others stay (R33, R181). -/
theorem LaunchRec.setField_eq (r : LaunchRec) {field : BitVec 8} (h : field.toNat ≤ 10) (d : BitVec 32) :
    r.setField field.toNat d = {
      chan := if field = 0 then d.setWidth 4 else r.chan
      note := if field = 1 then d.setWidth 7 else r.note
      vel := if field = 2 then d.setWidth 7 else r.vel
      vid := if field = 3 then d else r.vid
      wt := if field = 4 then d.setWidth 16 else r.wt
      cbbase := if field = 5 then d.setWidth 16 else r.cbbase
      cbcnt := if field = 6 then d.setWidth 16 else r.cbcnt
      excl := if field = 7 then d else r.excl
      reltrig := if field = 8 then d.getLsbD 0 else r.reltrig
      gofs := if field = 9 then d else r.gofs
      grate := if field = 10 then d else r.grate } := by
  obtain ⟨n, rfl⟩ : ∃ n : Fin 11, field = BitVec.ofNat 8 n := ⟨⟨field.toNat, by omega⟩, by simp⟩
  fin_cases n <;> rfl

/-- Settles O18: the field written is the one numbered, a number above 10 fails R352's check. -/
theorem lrwrWritesOneField : Obligations.LrwrWritesOneField :=
  ⟨fun s _ d h => ⟨_, exec_lrwr_of_le s h d, rfl, s.lr.setField_eq h d⟩, fun _ _ _ h => exec_of_outOfRange h nofun rfl⟩

/-! ## Commands that edit one slot -/

/-- An update of one slot after the activity mark touches no other slot and no register. -/
theorem onlySlot_updVoice {s : State} (hshaped : Shaped s) {v : Nat} (hv : v < s.cfg.nv) (f : Voice → Voice) :
    OnlySlot s (s.mark.updVoice v f) v ∧ (s.mark.updVoice v f).voice v = f (s.voice v) := by
  have hlen : v < s.mark.voices.length := by
    obtain ⟨hnv, -⟩ := hshaped
    exact hnv.symm ▸ hv
  refine ⟨⟨rfl, List.length_modify .., fun w hw => ?_⟩, ?_⟩
  · rw [s.mark.voice_updVoice w f hlen, if_neg hw, State.mark_voice]
  · rw [s.mark.voice_updVoice v f hlen, if_pos rfl, State.mark_voice]

/-- A slot command that passes its check and updates its slot, with what it makes of the slot said in another way. -/
theorem slotCommand_edits {s : State} {slot : BitVec 8} {f : Nat → State → State} {g : Voice → Voice} {w : Voice}
    (hrun : s.run = true) (hshaped : Shaped s) (hslot : slot.toNat < s.cfg.nv)
    (hf : f slot.toNat s.mark = s.mark.updVoice slot.toNat g) (hg : g (s.voice slot.toNat) = w) :
    ∃ t, done (slotCommand slot f s) = .next t ∧ OnlySlot s t slot.toNat ∧ t.voice slot.toNat = w := by
  obtain ⟨honly, hvoice⟩ := onlySlot_updVoice hshaped hslot g
  exact ⟨_, congrArg done ((slotCommand_ok hrun hslot f).trans hf), honly, hvoice.trans hg⟩

/-- `VOFF` by its mode, 0 to 2: release, or one of the two marks (R188). -/
theorem Voice.noteOff_eq (v : Voice) {mode : Nat} (h : mode < 3) : v.noteOff mode =
    if v.act = true then
      if mode = 0 then released v
      else { v with flags := { v.flags with
        sus := v.flags.sus || decide (mode = 1)
        sost := v.flags.sost || decide (mode = 2) } }
    else v := by
  unfold Voice.noteOff
  split
  · interval_cases mode
    · exact v.releaseNote_eq
    · simp
    · simp
  · rfl

/-- Settles O21: each command passes its check and updates its slot; `VOFF` by `noteOff_eq`, `VSIL` by R191's words. -/
theorem slotCommandsEditOneSlot : Obligations.SlotCommandsEditOneSlot := by
  intro s slot d hrun hshaped hslot
  refine ⟨fun hmode => ?voff, ?vsil, ?vcancel, ?vglide, ?ppwr⟩
  case voff =>
    have hmode : (low2 d).toNat ≠ 3 := low2_toNat d ▸ hmode
    have hlt : (low2 d).toNat < 3 := by have := (low2 d).isLt; omega
    refine slotCommand_edits hrun hshaped hslot (checkRange_ok (decide_eq_true hmode) _ _) ?_
    rw [Voice.noteOff_eq _ hlt, low2_toNat]
  case vsil =>
    refine slotCommand_edits hrun hshaped hslot rfl ?_
    rw [Voice.silence_eq]
  case vcancel => exact slotCommand_edits hrun hshaped hslot rfl rfl
  case vglide => exact slotCommand_edits hrun hshaped hslot rfl rfl
  case ppwr => exact slotCommand_edits hrun hshaped hslot rfl rfl

/-! ## `VSTART` on a slot that is not free, and its checks -/

/-- `VSTART` on an open machine, the slot in range. -/
theorem exec_vstart_of_lt {s : State} {slot : BitVec 8} (hrun : s.run = true) (hslot : slot.toNat < s.cfg.nv) :
    exec (.vstart slot) s = .next (startOn slot.toNat s.mark) :=
  congrArg done (slotCommand_ok hrun hslot startOn)

theorem startOn_of_pend {s : State} {v : Nat} (h : (s.voice v).pend.valid = true) : startOn v s = s.raise .vbusy := by
  simp [startOn, h]

theorem startOn_of_invalid {s : State} {v : Nat} {b : ErrBit} (h : (s.voice v).pend.valid = false)
    (hb : validate s s.lr = some b) : startOn v s = s.raise b := by
  simp [startOn, h, hb]

theorem startOn_of_valid {s : State} {v : Nat} (h : (s.voice v).pend.valid = false) (hwt : WavetableOk s s.lr)
    (hcb : BlockRangeOk s s.lr) : startOn v s = launchOn v s := by
  simp [startOn, h, (validate_eq_none_iff s s.lr).mpr ⟨hwt, hcb⟩]

theorem slotState_eq_active_iff (v : Voice) : slotState v = .active ↔ v.act = true ∧ v.pend.valid = false := by
  unfold slotState
  cases v.act <;> cases v.pend.valid <;> decide

/-- Settles O20: the takeover is an update of the slot, the three refusals are the branches of the start in their order. -/
theorem vstartTakesOverOrRefuses : Obligations.VstartTakesOverOrRefuses := by
  refine ⟨fun s slot hrun hshaped hslot hactive hwt hcb => ?_, fun s slot hrun hslot => ⟨fun hpend => ?_, ?_, ?_⟩⟩
  · obtain ⟨hact, hpend⟩ := (slotState_eq_active_iff _).mp hactive
    have hlaunch : startOn slot.toNat s.mark = s.mark.updVoice slot.toNat fun x => x.takeover s.lr :=
      (startOn_of_valid (s := s.mark) hpend hwt hcb).trans (if_pos hact)
    obtain ⟨t, hexec, honly, hvoice⟩ := slotCommand_edits (f := startOn) hrun hshaped hslot hlaunch rfl
    refine ⟨t, hexec, honly, ?_, ?_⟩
    · rw [hvoice, slotState_of_pend rfl, Voice.takeover_act, if_pos hact]
    · rw [hvoice, Voice.takeover, Voice.silence_eq]
  · rw [exec_vstart_of_lt hrun hslot, startOn_of_pend (s := s.mark) hpend]
    rfl
  · intro hpend hwt
    rw [exec_vstart_of_lt hrun hslot, startOn_of_invalid (s := s.mark) hpend (validate_wtbad (s := s.mark) hwt)]
    rfl
  · intro hpend hwt hcb
    rw [exec_vstart_of_lt hrun hslot, startOn_of_invalid (s := s.mark) hpend (validate_cbbad (s := s.mark) hwt hcb)]
    rfl

/-! ## `RDV` -/

theorem exec_rdv_of_ok {s : State} {slot : BitVec 8} {field : BitVec 16} (hslot : slot.toNat < s.cfg.nv)
    (hfield : field.toNat ≤ 9 ∨ (0x40 ≤ field.toNat ∧ field.toNat ≤ 0x57)) :
    exec (.rdv slot field) s = .next { s with rsp := (s.voice slot.toNat).fieldWord field.toNat } := by
  refine congrArg done (if_pos ((rdv_check_iff s slot field).mpr fun hout => ?_))
  unfold outOfRange at hout
  omega

/-- The fields of `FLAGS` at their places (R199). -/
theorem Voice.flagsWord_toNat (v : Voice) :
    v.flagsWord.toNat = v.act.toNat + 2 * v.pend.valid.toNat + 4 * v.flags.on.toNat + 8 * v.flags.sus.toNat +
      16 * v.flags.sost.toNat + 32 * (decide (v.gofs ≠ 0)).toNat + 64 * v.flags.silencing.toNat +
      128 * v.ident.reltrig.toNat + 256 * v.flags.final.toNat + 512 * v.flags.first.toNat + 1024 * v.pos.ended.toNat +
      4096 * v.ident.chan.toNat + 65536 * v.ident.note.toNat + 16777216 * v.ident.vel.toNat := by
  simp only [Voice.flagsWord, toNat_append_add, BitVec.toNat_ofBool, BitVec.toNat_ofNat, Voice.porta]
  omega

theorem EgStage.code_toNat (st : EgStage) : st.code.toNat = stageNumber st := by cases st <;> rfl

/-- `LEVEL` below `STAGE` (R199, R240). -/
theorem Eg.word_toNat (e : Eg) : e.word.toNat = e.level.toNat + 16777216 * stageNumber e.stage := by
  simp only [Eg.word, toNat_append_add, BitVec.toNat_ofNat, EgStage.code_toNat]
  omega

/-- A word of two halves. -/
theorem toNat_append_half (x y : BitVec 16) : (x ++ y : BitVec 32).toNat = y.toNat + 65536 * x.toNat := by
  rw [toNat_append_add]
  omega

/-- A clamp in the terms of `max` and `min`. -/
theorem clamp_eq_max_min {x lo hi : Int} (h : lo ≤ hi) : clamp x lo hi = max lo (min hi x) := by
  unfold clamp
  split_ifs <;> omega

/-- A destination as `RDV` shows it is its value held to 32 bits (R199). -/
theorem dstWord_toInt (x : Int) : (dstWord x).toInt = max (-2147483648) (min 2147483647 x) := by
  have hbounds := clamp_bounds (x := x) (lo := -2147483648) (hi := 2147483647) (by decide)
  rw [dstWord, BitVec.toInt_ofInt_eq_self (by decide) (by omega) (by omega), clamp_eq_max_min (by decide)]

theorem Voice.dstNat_eq (v : Voice) (k : Fin 24) : v.dstNat k = v.dst[k].toInt := by
  simp [Voice.dstNat]

theorem Voice.fieldWord_dst (v : Voice) (k : Fin 24) : v.fieldWord (0x40 + k.val) = dstWord v.dst[k].toInt := by
  have hword : v.fieldWord (k.val + 0x40) = dstWord (v.dstNat k) := rfl
  rw [Nat.add_comm 0x40, hword, Voice.dstNat_eq]

/-- Settles O22: row by row of the table. -/
theorem rdvAnswersItsTable : Obligations.RdvAnswersItsTable := by
  refine ⟨fun s slot field hslot hfield => ⟨_, _, rfl, exec_rdv_of_ok hslot hfield, ?_⟩, fun s slot field hout => ?_⟩
  · generalize s.voice slot.toNat = v
    refine ⟨?flags, ?vid, ?excl, ?bases, ?eg0, ?eg1, ?lfo0, ?lfo1, ?gains, ?step, fun k hk => ?dst⟩
    case dst => rw [hk, Voice.fieldWord_dst, dstWord_toInt]
    all_goals rintro rfl
    case flags => exact v.flagsWord_toNat
    case vid | excl | step => rfl
    case bases => exact toNat_append_half v.ident.cbbase v.ident.wtidx
    case eg0 => exact v.eg0.word_toNat
    case eg1 => exact v.eg1.word_toNat
    case lfo0 => exact toNat_append_half v.lfo0.dcnt v.lfo0.out
    case lfo1 => exact toNat_append_half v.lfo1.dcnt v.lfo1.out
    case gains => exact toNat_append_half v.shut v.audio.anew
  · exact exec_read_of_outOfRange (i := .rdv slot field) hout rfl

end Sys2Proof.Machine
end

section
/-! `VSTART` on a FREE slot initialises it: what `Init` writes, both evaluations included (R185, R218, R219, R222, R255). -/

namespace Sys2Proof.Machine
open Safety

-- One theorem at a time: each further thread would reserve a gigabyte of the check's memory.
set_option Elab.async false

/-! ## When an evaluation meets a malformed entry -/

theorem any_blockList (s : State) (v : Voice) (p : CbEntry → Bool) : (blockList s v).any p = true ↔
    ∃ j < v.ident.cbcnt.toNat, p (s.cbAt (v.ident.cbbase.toNat + j)) = true := by
  simp [blockList]

/-- The evaluation of a tick raises `CBBAD` for a malformed entry that it does not skip (R216, R218, R222). -/
theorem evalTickBad_iff (s : State) (v : Voice) :
    evalTickBad s v = true ↔ malformedAtTick s v.ident.cbbase.toNat v.ident.cbcnt.toNat := by
  simp only [evalTickBad, any_blockList, malformedAtTick, Bool.or_eq_true, Bool.and_eq_true, decide_eq_true_eq, entryBad_iff]

/-- The evaluation at note-on raises `CBBAD` for a malformed entry that it does not skip (R219, R222). -/
theorem evalInitBad_iff (s : State) (v : Voice) :
    evalInitBad s v = true ↔ malformedAtNoteOn s v.ident.cbbase.toNat v.ident.cbcnt.toNat := by
  simp only [evalInitBad, any_blockList, malformedAtNoteOn, Bool.and_eq_true, decide_eq_true_eq, entryBad_iff]

/-- `Init` raises `CBBAD` for a malformed entry in one of its two evaluations (R185 step 7). -/
theorem initBad_iff (s : State) (r : LaunchRec) : initBad s r = true ↔ malformedAtInit s r := by
  rw [initBad, Bool.or_eq_true, evalInitBad_iff, evalTickBad_iff, evalInit_ident]
  rfl

/-! ## What a sum reads of a voice -/

/-- Two voices with the same sources: the graph reads the same of either (R212). -/
structure SameSources (v w : Voice) : Prop where
  ident  : w.ident = v.ident
  on     : w.flags.on = v.flags.on
  forced : w.forced = v.forced
  pp     : w.pp = v.pp
  eg0    : w.eg0.level = v.eg0.level
  eg1    : w.eg1.level = v.eg1.level
  lfo0   : w.lfo0.out = v.lfo0.out
  lfo1   : w.lfo1.out = v.lfo1.out

theorem SameSources.sourceValue {v w : Voice} (h : SameSources v w) (s : State) (src : Source) :
    sourceValue s w src = sourceValue s v src := by
  cases src <;> simp only [Machine.sourceValue, h.ident, h.on, h.forced, h.pp, h.eg0, h.eg1, h.lfo0, h.lfo1]

theorem SameSources.resolved {v w : Voice} (h : SameSources v w) (s : State) (k : Nat) : resolved s w k = resolved s v k := by
  have htransform : transform s w = transform s v := by
    funext sel xf
    simp only [transform, h.sourceValue]
  unfold Safety.resolved block contributionOf
  rw [htransform, h.ident]

/-! ## The voice that `Init` makes -/

theorem evalInit_forced (s : State) (v : Voice) : (evalInit s v).forced = {
    fvelv := v.forced.fvelv || targets s v 0
    fkeyv := v.forced.fkeyv || targets s v 1
    fvel := if targets s v 0 then forcedValue (dstSum s v (blockList s v) 0) else v.forced.fvel
    fkey := if targets s v 1 then forcedValue (dstSum s v (blockList s v) 1) else v.forced.fkey } := rfl

/-- A forced value is the whole part of its destination, held to seven bits (R219). -/
theorem forcedValue_toNat (x : Int) : ((forcedValue x).toNat : Int) = max 0 (min 127 (x / 65536)) := by
  have hbounds := clamp_bounds (x := asr x 16) (lo := 0) (hi := 127) (by decide)
  rw [forcedValue, BitVec.toNat_ofInt]
  rw [clamp_eq_max_min (by decide), asr_eq] at *
  norm_num at *
  omega

/-- An LFO delay is the whole part of its destination, held to sixteen bits (R255). -/
theorem lfoDelay_toNat (x : Int) : ((lfoDelay x).toNat : Int) = max 0 (min 65535 (x / 65536)) := by
  have hbounds := clamp_bounds (x := asr x 16) (lo := 0) (hi := 65535) (by decide)
  rw [lfoDelay, BitVec.toNat_ofInt]
  rw [clamp_eq_max_min (by decide), asr_eq] at *
  norm_num at *
  omega

theorem voiceInRange_freshVoice (s : State) (r : LaunchRec) : VoiceInRange (freshVoice s r) := by
  obtain ⟨heg0, heg1, hlfo0, hlfo1, -, haudio⟩ := voiceInRange_reset
  exact ⟨heg0, heg1, hlfo0, hlfo1, Nat.le_refl _, haudio⟩

theorem voiceInRange_evalInit {v : Voice} (h : VoiceInRange v) (s : State) : VoiceInRange (evalInit s v) := by
  simpa only [VoiceInRange, evalInit_eg0, evalInit_eg1, evalInit_lfo0, evalInit_lfo1, evalInit_shut, evalInit_audio] using h

/-- The evaluation at note-on writes destinations 0 and 1, exactly (R219). -/
theorem evalInit_toInt_dst {s : State} {v : Voice} (hs : RegistersInRange s) (hv : VoiceInRange v) (k : Fin 24)
    (hk : k.val < 2) : (evalInit s v).dst[k].toInt = resolved s v k.val := by
  have hbound := abs_le.mp (abs_resolved_le hs hv k)
  have hdst : (evalInit s v).dst[k] = BitVec.ofInt 48 (resolved s v k.val) := by
    rw [← dstSum_blockList]
    match k, hk with
    | 0, _ => simp [evalInit]
    | 1, _ => simp [evalInit]
  rw [hdst, BitVec.toInt_ofInt_eq_self (by decide) (by omega) (by omega)]

/-- The destinations of a started voice: 0 and 1 from the record's own velocity and key, the others after the forced values
(R185 step 7). -/
theorem initVoice_toInt_dst {s : State} (hs : RegistersInRange s) (r : LaunchRec) (k : Fin 24) :
    (initVoice s r).dst[k].toInt =
      if k.val < 2 then resolved s (freshVoice s r) k.val else resolved s (evalInit s (freshVoice s r)) k.val := by
  have hfresh := voiceInRange_freshVoice s r
  obtain ⟨-, htick, -⟩ := destinationsAreExactSums s _ hs (voiceInRange_evalInit hfresh s)
  have hdst : (initVoice s r).dst = (evalTick s (evalInit s (freshVoice s r))).dst := Voice.startLfos_dst _
  rw [hdst, htick k]
  split
  · rename_i hk
    exact evalInit_toInt_dst hs hfresh k hk
  · rfl

/-- After the note-on evaluation `Init` changes no source. -/
theorem sameSources_initVoice (s : State) (r : LaunchRec) : SameSources (evalInit s (freshVoice s r)) (initVoice s r) := by
  constructor <;> simp [initVoice]

/-- Without its forced values a started voice has the sources of the record (R219). -/
theorem sameSources_unforced (s : State) (r : LaunchRec) : SameSources (freshVoice s r)
    { initVoice s r with forced := { fvelv := false, fkeyv := false, fvel := 0, fkey := 0 } } := by
  refine ⟨?_, ?_, rfl, ?_, ?_, ?_, ?_, ?_⟩ <;> simp [initVoice]

/-- An entry of the block list has that destination (R219). -/
theorem targets_iff (s : State) (v : Voice) {k : Nat} (hk : k < 256) :
    targets s v k = true ↔ ∃ j < v.ident.cbcnt.toNat, (block s v j).dstn = BitVec.ofNat 8 k := by
  simp only [targets, any_blockList, decide_eq_true_eq, block, ← BitVec.toNat_inj, BitVec.toNat_ofNat, Nat.mod_eq_of_lt hk]

/-- The forced values of a started voice (R219). -/
theorem initVoice_forced (s : State) (r : LaunchRec) : (initVoice s r).forced = {
    fvelv := targets s (freshVoice s r) 0
    fkeyv := targets s (freshVoice s r) 1
    fvel := if targets s (freshVoice s r) 0 then forcedValue (resolved s (freshVoice s r) 0) else 0
    fkey := if targets s (freshVoice s r) 1 then forcedValue (resolved s (freshVoice s r) 1) else 0 } := by
  rw [initVoice, Voice.startLfos_forced, evalTick_forced, evalInit_forced, dstSum_blockList, dstSum_blockList]
  rfl

/-- A forced value, or 0 where no entry sets it, from the destination register (R219). -/
theorem ite_forcedValue_toNat (b : Bool) (x : Int) :
    ((if b then forcedValue x else 0 : BitVec 7).toNat : Int) =
      if b = true then max (0 : Int) (min 127 (x / 65536)) else 0 := by
  cases b
  · rfl
  · exact forcedValue_toNat x

/-- `VSTART` of a valid record on a free slot is `Init` on that slot, with the bit of its evaluations (R182, R185). -/
theorem startOn_of_free {s : State} {v : Nat} (h : slotState (s.voice v) = .free) (hwt : WavetableOk s s.lr)
    (hcb : BlockRangeOk s s.lr) : startOn v s =
      (s.updVoice v fun _ => initVoice s s.lr).raiseAll (ErrBit.cbbad.maskIf (initBad s s.lr)) := by
  obtain ⟨hact, hpend⟩ := (slotState_eq_free_iff _).mp h
  rw [startOn_of_valid hpend hwt hcb, launchOn, if_neg (by simp [hact])]

/-- Settles O19: the start is `Init` on the slot; its fields are those of `freshVoice` but for the forced values, the
destinations and the LFO delays, which have their own lemmas. -/
theorem vstartInitialisesAFreeSlot : Obligations.VstartInitialisesAFreeSlot := by
  intro s slot hrun hshaped hregs hslot hfree hwt hcb
  have hstart := startOn_of_free (s := s.mark) hfree hwt hcb
  obtain ⟨honly, hvoice⟩ := onlySlot_updVoice hshaped hslot fun _ => initVoice s s.lr
  refine ⟨_, initVoice s s.lr, (exec_vstart_of_lt hrun hslot).trans (congrArg Host.Outcome.next hstart), hvoice.symm, honly,
    fun h => ?malformed, fun h => ?wellformed, rfl, initVoice_act s s.lr, initVoice_pend s s.lr, ?ident, ?flags, ?fvelv, ?fkeyv,
    ?fvel, ?fkey, fun k => ?dst, ?pp, ?shut, ?eg0, ?eg1, ?lfo0ph, ?lfo0out, ?lfo1ph, ?lfo1out, ?delay0, ?delay1, ?gofs, ?grate,
    ?desc, ?pos, ?audio, ?stale⟩
  case malformed =>
    show s.err ||| ErrBit.cbbad.maskIf (initBad s s.lr) = _
    rw [(initBad_iff s s.lr).mpr h]
    rfl
  case wellformed =>
    show s.err ||| ErrBit.cbbad.maskIf (initBad s s.lr) = _
    rw [Bool.eq_false_of_not_eq_true fun hb => h ((initBad_iff s s.lr).mp hb)]
    exact BitVec.or_zero
  case fvelv =>
    rw [initVoice_forced]
    exact (targets_iff s _ (by decide)).trans (by simp [block, initVoice, freshVoice])
  case fkeyv =>
    rw [initVoice_forced]
    exact (targets_iff s _ (by decide)).trans (by simp [block, initVoice, freshVoice])
  case fvel =>
    have hdst := initVoice_toInt_dst hregs s.lr 0
    rw [initVoice_forced]
    refine (ite_forcedValue_toNat _ _).trans ?_
    rw [show (initVoice s s.lr).dst[0].toInt = _ from hdst]
    rfl
  case fkey =>
    have hdst := initVoice_toInt_dst hregs s.lr 1
    rw [initVoice_forced]
    refine (ite_forcedValue_toNat _ _).trans ?_
    rw [show (initVoice s s.lr).dst[1].toInt = _ from hdst]
    rfl
  case dst =>
    rw [initVoice_toInt_dst hregs, (sameSources_initVoice s s.lr).resolved, (sameSources_unforced s s.lr).resolved]
  case delay0 => exact lfoDelay_toNat _
  case delay1 => exact lfoDelay_toNat _
  case pos => rw [decide_not]; rfl
  case ident | flags | pp | shut | eg0 | eg1 | lfo0ph | lfo0out | lfo1ph | lfo1out | gofs | grate | desc | audio | stale => rfl

end Sys2Proof.Machine
end

section
/-! A queued note starts in the next tick or is dropped (R187, R303), and a silenced voice ends with its shutdown ramp (R191,
R314, R315). -/

namespace Sys2Proof.Machine
open Safety

-- One theorem at a time: each further thread would reserve a gigabyte of the check's memory.
set_option Elab.async false

/-! ## The step of a due tick -/

/-- The tick that is due is the step (R81). -/
theorem step_of_tickDue {s t : State} (hdue : TickDue s) (hstep : step s = .next t) :
    ∃ rest, t = tick { s with sched := rest } := by
  obtain ⟨hhead, hrun, hempty, hidle⟩ := hdue
  obtain ⟨rest, hs⟩ := List.head?_eq_some_iff.mp hhead
  exact ⟨rest, Host.Outcome.next.inj (hstep.symm.trans (step_tick hs hrun hempty hidle))⟩

/-- Nothing that a voice reads is in the schedule. -/
theorem sameInputs_withSched (s : State) (rest : List Event) : SameInputs s { s with sched := rest } :=
  ⟨rfl, rfl, rfl, rfl, rfl, rfl, rfl, rfl, rfl, rfl⟩

theorem watchdogFires_eq_false {s : State} (h : ¬ WatchdogDue s) : s.watchdogFires = false :=
  Bool.eq_false_of_not_eq_true fun hf => h ((watchdogFires_iff s).mp hf)

theorem not_watchdogDue {s : State} (hf : s.watchdogFires = false) : ¬ WatchdogDue s := fun h =>
  Bool.false_ne_true (hf.symm.trans ((watchdogFires_iff s).mpr h))

theorem SameInputs.wavetableOk {s t : State} (h : SameInputs s t) (r : LaunchRec) : WavetableOk t r ↔ WavetableOk s r := by
  simp only [WavetableOk, h.cfg, h.descAt]

theorem SameInputs.blockRangeOk {s t : State} (h : SameInputs s t) (r : LaunchRec) : BlockRangeOk t r ↔ BlockRangeOk s r := by
  simp only [BlockRangeOk, h.cfg]

/-! ## Promotion -/

theorem slotState_eq_freeQueued_iff (v : Voice) : slotState v = .freeQueued ↔ v.act = false ∧ v.pend.valid = true := by
  unfold slotState
  cases v.act <;> cases v.pend.valid <;> decide

/-- A queued valid record reaches the audio logic as a started voice after its control logic (R187, R300). -/
theorem voiceAtAudio_of_promoted {s : State} (hf : s.watchdogFires = false) {v : Voice} (hq : slotState v = .freeQueued)
    (hvalid : validate s v.pend.launch = none) : voiceAtAudio s v = controlLogic s (initVoice s v.pend.launch) := by
  obtain ⟨hact, hpend⟩ := (slotState_eq_freeQueued_iff v).mp hq
  have hcontrol : voiceAtControl s v = initVoice s v.pend.launch := by
    simp [voiceAtControl, hf, promoteVoice, hact, hpend, hvalid]
  rw [voiceAtAudio, hcontrol, controlVoice, if_pos (initVoice_act ..)]

/-- A queued record that fails its check is gone before the control logic, and nothing else of the slot (R187). -/
theorem voiceAtAudio_of_dropped {s : State} (hf : s.watchdogFires = false) {v : Voice} (hq : slotState v = .freeQueued)
    {b : ErrBit} (hinvalid : validate s v.pend.launch = some b) : voiceAtAudio s v = { v with pend := .none } := by
  obtain ⟨hact, hpend⟩ := (slotState_eq_freeQueued_iff v).mp hq
  simp [voiceAtAudio, voiceAtControl, controlVoice, hf, promoteVoice, hact, hpend, hinvalid]

/-- The bit of a check that a queued record fails is raised by its tick (R187, R354, R355). -/
theorem tick_err_of_dropped {s : State} (hf : s.watchdogFires = false) {v : Nat} (hv : v < s.voices.length)
    (hq : slotState (s.voice v) = .freeQueued) {b : ErrBit} (hinvalid : validate s (s.voice v).pend.launch = some b) :
    (tick s).err.getLsbD b.num = true := by
  obtain ⟨hact, hpend⟩ := (slotState_eq_freeQueued_iff _).mp hq
  obtain ⟨vdone, idle, herr⟩ := tick_err s
  have hraised : (promoteErr s (s.voice v)).getLsbD b.num = true := by
    have hmask : promoteErr s (s.voice v) = b.maskIf true := by simp [promoteErr, hact, hpend, hinvalid, ErrBit.maskIf]
    rw [hmask, ErrBit.getLsbD_maskIf]
    simp
  have hany : (s.voices.any fun v => (promoteErr s (if s.watchdogFires then v.allOff else v)).getLsbD b.num) = true := by
    simp only [hf, Bool.false_eq_true, if_false]
    exact List.any_eq_true.mpr ⟨_, s.voice_mem hv, hraised⟩
  rw [herr, hany]
  simp

/-- A dropped record leaves its slot FREE through the tick (R187). -/
theorem tick_voice_of_dropped {s : State} (hf : s.watchdogFires = false) {v : Nat} (hv : v < s.voices.length)
    (hq : slotState (s.voice v) = .freeQueued) {b : ErrBit} (hinvalid : validate s (s.voice v).pend.launch = some b) :
    (tick s).voice v = { s.voice v with pend := .none } := by
  obtain ⟨hact, -⟩ := (slotState_eq_freeQueued_iff _).mp hq
  obtain ⟨ctr, htick⟩ := tick_voice s hv
  rw [htick, voiceAtAudio_of_dropped hf hq hinvalid, if_neg (by simp [hact])]

/-- A started record runs its control logic and its audio logic in the tick that promotes it (R303, R325). -/
theorem tickedFrom_of_promoted {s : State} (hf : s.watchdogFires = false) {v : Nat} (hv : v < s.voices.length)
    (hq : slotState (s.voice v) = .freeQueued) (hvalid : validate s (s.voice v).pend.launch = none) :
    TickedFrom s (initVoice s (s.voice v).pend.launch) ((tick s).voice v) ∧
      (((tick s).voice v).act = false → (tick s).err.getLsbD 8 = true) := by
  have haudio := voiceAtAudio_of_promoted hf hq hvalid
  have hact : (voiceAtAudio s (s.voice v)).act = true := by rw [haudio, controlLogic_act, initVoice_act]
  obtain ⟨ctr, htick⟩ := tick_voice s hv
  refine ⟨?_, tick_err_vdone hv hact⟩
  rw [htick, if_pos hact, haudio]
  exact tickedFrom_finish (initVoice_act ..) ctr

/-- What a tick leaves of a voice it runs (R310 to R325). -/
theorem tickedFrom_fields {s : State} {x w : Voice} (h : TickedFrom s x w) :
    w.pend = x.pend ∧ w.flags.first = false ∧ w.flags.on = x.flags.on ∧ w.desc = x.desc ∧ w.ident = x.ident ∧
      w.act = !(w.flags.final || w.pos.ended) := by
  obtain ⟨c, ctr, hc, hpos, hact, -, hflags, -, hrest⟩ := h
  have hpend : w.pend = c.pend := by rw [← hrest]
  have hdesc : w.desc = c.desc := by rw [← hrest]
  have hident : w.ident = c.ident := by rw [← hrest]
  rw [hpend, hdesc, hident, hact, hflags, hpos, hc]
  simp [controlLogic_flags]

/-- Settles O34: by the outcome of `Validate`, the record is started and run or dropped with its bit. -/
theorem queuedNotesArePromoted : Obligations.QueuedNotesArePromoted := by
  rintro s t v r hdue hdog hstep hv hq rfl
  obtain ⟨rest, rfl⟩ := step_of_tickDue hdue hstep
  have hsame := sameInputs_withSched s rest
  have hf : State.watchdogFires { s with sched := rest } = false :=
    watchdogFires_eq_false (s := { s with sched := rest }) hdog
  have hvoice : State.voice { s with sched := rest } v = s.voice v := rfl
  have hv : v < ({ s with sched := rest } : State).voices.length := hv
  rw [← hvoice] at hq ⊢
  generalize ({ s with sched := rest } : State) = u at *
  rw [← hsame.wavetableOk, ← hsame.blockRangeOk]
  refine ⟨fun hwt hcb => ?_, fun hwt => ?_, fun hwt hcb => ?_⟩
  · obtain ⟨hticked, hended⟩ := tickedFrom_of_promoted hf hv hq ((validate_eq_none_iff u _).mpr ⟨hwt, hcb⟩)
    obtain ⟨hpend, hfirst, hon, hdesc, hident, hact⟩ := tickedFrom_fields hticked
    refine ⟨hsame.initVoice _ ▸ hsame.tickedFrom hticked, hpend.trans (initVoice_pend ..), hfirst, hon.trans rfl, ?_,
      hident.trans rfl, hact, hended⟩
    exact hdesc.trans (hsame.descAt _)
  · have hinvalid := validate_wtbad hwt
    exact ⟨tick_voice_of_dropped hf hv hq hinvalid, tick_err_of_dropped hf hv hq hinvalid⟩
  · have hinvalid := validate_cbbad hwt hcb
    exact ⟨tick_voice_of_dropped hf hv hq hinvalid, tick_err_of_dropped hf hv hq hinvalid⟩

/-! ## The shutdown ramp -/

/-- What comes before the control logic leaves an active voice its blocks and its gain, and does not end its silencing (R302,
R303). -/
theorem voiceAtControl_of_act (s : State) {v : Voice} (hact : v.act = true) :
    (voiceAtControl s v).act = true ∧ (voiceAtControl s v).ident = v.ident ∧ (voiceAtControl s v).shut = v.shut ∧
      (v.flags.silencing = true → (voiceAtControl s v).flags.silencing = true) := by
  cases hf : s.watchdogFires with
  | true =>
    rw [voiceAtControl_eq_allOff hf]
    simp [Voice.allOff, hact]
  | false => simp [voiceAtControl, hf, promoteVoice, hact]

/-- A silencing voice that goes on after a tick is silencing still, and its gain has gone down a full step, not yet to 0
(R314, R315). -/
theorem tick_of_silencing {s : State} {v : Nat} (hv : v < s.voices.length) (hact : (s.voice v).act = true)
    (hsil : (s.voice v).flags.silencing = true) (hgoes : ((tick s).voice v).act = true) :
    ((tick s).voice v).flags.silencing = true ∧ 0 < ((tick s).voice v).shut.toNat ∧
      ((tick s).voice v).shut.toNat + s.cfg.shutStep = (s.voice v).shut.toNat := by
  obtain ⟨hact', -, hshut', hsilKept⟩ := voiceAtControl_of_act s hact
  have hsil' := hsilKept hsil
  obtain ⟨ctr, htick⟩ := tick_voice s hv
  obtain ⟨hsilencing, -⟩ := tick_silencing_on s hv
  have haudio : voiceAtAudio s (s.voice v) = controlLogic s (voiceAtControl s (s.voice v)) := by
    rw [voiceAtAudio, controlVoice, if_pos hact']
  rw [haudio, if_pos ((controlLogic_act ..).trans hact'), Voice.finish_eq] at htick
  have hshut : ((tick s).voice v).shut = BitVec.ofNat 16 ((s.voice v).shut.toNat - s.cfg.shutStep) := by
    rw [htick]
    simp only [controlLogic_shut, hsil', hshut', if_true]
  have hnotFinal : (controlLogic s (voiceAtControl s (s.voice v))).flags.final = false := by
    rw [htick] at hgoes
    simp only [Bool.and_eq_true, Bool.not_eq_true', Bool.or_eq_false_iff] at hgoes
    obtain ⟨-, hfinal, -⟩ := hgoes
    exact hfinal
  have hpositive : ((tick s).voice v).shut ≠ 0 := by
    intro hzero
    rw [htick] at hzero
    rw [controlLogic_flags, hsil', decide_eq_true hzero, Bool.and_true, Bool.or_true] at hnotFinal
    cases hnotFinal
  have hlt := (s.voice v).shut.isLt
  have hnat : ((tick s).voice v).shut.toNat = (s.voice v).shut.toNat - s.cfg.shutStep := by
    rw [hshut, BitVec.toNat_ofNat, Nat.mod_eq_of_lt (by omega)]
  have hpos : 0 < ((tick s).voice v).shut.toNat :=
    Nat.pos_of_ne_zero fun h => hpositive (BitVec.eq_of_toNat_eq h)
  exact ⟨hsilencing.trans hsil', hpos, by omega⟩

/-- A gain of at most k + 1 steps is down in as many ticks. -/
theorem silencing_ends (k : Nat) {s : State} {v : Nat} (hv : v < s.voices.length) (hact : (s.voice v).act = true)
    (hsil : (s.voice v).flags.silencing = true) (hshut : (s.voice v).shut.toNat ≤ (k + 1) * s.cfg.shutStep) :
    ∃ n ≤ k + 1, ((tick^[n] s).voice v).act = false := by
  induction k generalizing s with
  | zero =>
    refine ⟨1, le_rfl, Bool.eq_false_of_not_eq_true fun hgoes => ?_⟩
    obtain ⟨-, hpos, hstep⟩ := tick_of_silencing hv hact hsil hgoes
    omega
  | succ k ih =>
    cases hgoes : ((tick s).voice v).act with
    | false => exact ⟨1, by omega, hgoes⟩
    | true =>
      obtain ⟨hsil', -, hstep⟩ := tick_of_silencing hv hact hsil hgoes
      have hsteps : (k + 1 + 1) * s.cfg.shutStep = (k + 1) * s.cfg.shutStep + s.cfg.shutStep := Nat.succ_mul ..
      obtain ⟨n, hn, hend⟩ := ih (s := tick s) (by rw [tick_voices_length]; exact hv) hgoes hsil'
        (by rw [tick_cfg]; omega)
      exact ⟨n + 1, by omega, hend⟩

/-- Settles O35: the steps that cover the full gain are the ceiling of 32768 / `SHUT_STEP`. -/
theorem silencedVoicesEnd : Obligations.SilencedVoicesEnd := by
  intro s v hv hstep hact hsil hshut
  have hcover := Nat.lt_mul_div_succ (32768 + s.cfg.shutStep - 1) hstep
  have hpos : 1 ≤ (32768 + s.cfg.shutStep - 1) / s.cfg.shutStep := (Nat.one_le_div_iff hstep).mpr (by omega)
  generalize (32768 + s.cfg.shutStep - 1) / s.cfg.shutStep = n at hcover hpos ⊢
  obtain ⟨k, rfl⟩ : ∃ k, n = k + 1 := ⟨n - 1, by omega⟩
  refine silencing_ends k hv hact hsil ?_
  have hsteps : s.cfg.shutStep * (k + 1 + 1) = (k + 1) * s.cfg.shutStep + s.cfg.shutStep := by ring
  omega

end Sys2Proof.Machine
end

section
/-! Bit 4 of `ERR`, `CBBAD`: which transitions raise it (R222, R352, R355). -/

namespace Sys2Proof.Machine
open Safety

-- One theorem at a time: each further thread would reserve a gigabyte of the check's memory.
set_option Elab.async false

/-! ## Commands that raise `RANGE` at most -/

/-- From `s` to `t` the machine has raised `RANGE` or nothing, and cleared nothing. -/
def RaisesRangeAtMost (s t : State) : Prop := t.err = s.err ∨ t.err = s.err ||| ErrBit.range.mask

theorem raisesRangeAtMost_check {s : State} {ok : Bool} {f : State → State} (h : RaisesRangeAtMost s (f s)) :
    RaisesRangeAtMost s (checkRange ok f s) := by
  unfold checkRange
  split
  · exact h
  · exact .inr rfl

/-- The same through each stage of a command (R103). -/
theorem raisesRangeAtMost_checked {s : State} {ok : State → Bool} {f : State → State}
    (h : RaisesRangeAtMost s.mark (f s.mark)) : RaisesRangeAtMost s (activityCommand s fun s => checkRange (ok s) f s) :=
  raisesRangeAtMost_check (s := s.mark) h

theorem raisesRangeAtMost_closedSet {s : State} {f : State → State} (h : RaisesRangeAtMost s.mark (f s.mark)) :
    RaisesRangeAtMost s (closedSetCommand s f) := by
  unfold closedSetCommand
  split
  · exact h
  · exact .inl rfl

theorem raisesRangeAtMost_channel {s : State} {c : BitVec 8} {f : BitVec 4 → State → State}
    (h : ∀ c, RaisesRangeAtMost s.mark (f c s.mark)) : RaisesRangeAtMost s (channelCommand c f s) :=
  raisesRangeAtMost_closedSet (raisesRangeAtMost_check (h _))

theorem raisesRangeAtMost_slot {s : State} {v : BitVec 8} {f : Nat → State → State}
    (h : RaisesRangeAtMost s.mark (f v.toNat s.mark)) : RaisesRangeAtMost s (slotCommand v f s) :=
  raisesRangeAtMost_closedSet (raisesRangeAtMost_check h)

/-- `VSTART` and `ERRCLR` aside, a command raises `RANGE` at most (R352). -/
theorem exec_raisesRangeAtMost {i : Instr} (s : State) (hstart : ∀ slot, i ≠ .vstart slot) (hclr : ∀ m, i ≠ .errclr m) :
    ∃ t, exec i s = .next t ∧ RaisesRangeAtMost s t := by
  cases i with
  | vstart v => exact absurd rfl (hstart v)
  | errclr m => exact absurd rfl (hclr m)
  | nop | asense | ienset => exact ⟨_, rfl, .inl rfl⟩
  | open_ =>
    cases hrun : s.run with
    | false => exact ⟨_, exec_open_of_closed hrun, .inl rfl⟩
    | true => exact ⟨_, exec_open_of_open hrun, .inl rfl⟩
  | close =>
    cases hrun : s.run with
    | false => exact ⟨_, exec_close_of_closed hrun, .inl rfl⟩
    | true => exact ⟨_, exec_close_of_open hrun, .inl rfl⟩
  | mset reg d =>
    refine ⟨_, rfl, raisesRangeAtMost_checked (ok := fun _ => decide (reg.toNat ≤ 3)) (.inl ?_)⟩
    unfold State.setMaster
    split <;> rfl
  | lrwr | wptr | wwr | wtwr | cbwr => exact ⟨_, rfl, raisesRangeAtMost_checked (.inl rfl)⟩
  | pbwr | cpwr | choff | chrel => exact ⟨_, rfl, raisesRangeAtMost_channel fun _ => .inl rfl⟩
  | ccwr | rpnwr | nrpnwr => exact ⟨_, rfl, raisesRangeAtMost_channel fun _ => raisesRangeAtMost_check (.inl rfl)⟩
  | vsil | vcancel | vglide | ppwr => exact ⟨_, rfl, raisesRangeAtMost_slot (.inl rfl)⟩
  | voff => exact ⟨_, rfl, raisesRangeAtMost_slot (raisesRangeAtMost_check (.inl rfl))⟩
  | rdg | rdv =>
    refine ⟨_, rfl, ?_⟩
    split
    · exact .inl rfl
    · exact .inr rfl

/-- `CBBAD` is not `RANGE` (R350). -/
theorem RaisesRangeAtMost.cbbad {s t : State} (h : RaisesRangeAtMost s t) : t.err.getLsbD 4 = s.err.getLsbD 4 := by
  have hrange : ErrBit.range.mask.getLsbD 4 = false := by decide
  rcases h with h | h <;> rw [h]
  rw [BitVec.getLsbD_or, hrange, Bool.or_false]

/-! ## `VSTART` -/

/-- R355's causes at a `VSTART` on that slot. -/
def CbbadAtStart (s : State) (v : Nat) : Prop :=
  (s.voice v).pend.valid = false ∧ WavetableOk s s.lr ∧
    (¬ BlockRangeOk s s.lr ∨ ((s.voice v).act = false ∧ malformedAtInit s s.lr))

/-- Raising a bit sets `CBBAD` if it is that bit. -/
theorem State.raise_cbbad (s : State) (b : ErrBit) :
    (s.raise b).err.getLsbD 4 = true ↔ s.err.getLsbD 4 = true ∨ b = .cbbad := by
  have hmask : b.mask.getLsbD 4 = true ↔ b = .cbbad := by cases b <;> decide
  rw [State.raise_err, BitVec.getLsbD_or, Bool.or_eq_true, hmask]

/-- A start sets `CBBAD` for a bad block range, or for a malformed entry of the voice it starts (R182, R184, R185, R355). -/
theorem startOn_cbbad (s : State) (v : Nat) :
    (startOn v s).err.getLsbD 4 = true ↔ s.err.getLsbD 4 = true ∨ CbbadAtStart s v := by
  unfold CbbadAtStart
  cases hpend : (s.voice v).pend.valid with
  | true =>
    rw [startOn_of_pend hpend, State.raise_cbbad]
    exact or_congr_right (iff_of_false nofun nofun)
  | false =>
    by_cases hwt : WavetableOk s s.lr
    swap
    · rw [startOn_of_invalid hpend (validate_wtbad hwt), State.raise_cbbad]
      exact or_congr_right (iff_of_false nofun fun ⟨_, h, _⟩ => hwt h)
    by_cases hcb : BlockRangeOk s s.lr
    swap
    · rw [startOn_of_invalid hpend (validate_cbbad hwt hcb), State.raise_cbbad]
      exact or_congr_right (iff_of_true rfl ⟨rfl, hwt, .inl hcb⟩)
    rw [startOn_of_valid hpend hwt hcb, launchOn]
    cases hact : (s.voice v).act with
    | true =>
      rw [if_pos rfl, State.updVoice_err]
      exact (or_iff_left fun ⟨_, _, h⟩ => h.elim (absurd hcb) nofun).symm
    | false =>
      rw [if_neg nofun, State.raiseAll_maskIf, ← initBad_iff]
      cases hbad : initBad s s.lr with
      | true =>
        rw [if_pos rfl, State.raise_cbbad]
        exact or_congr_right (iff_of_true rfl ⟨rfl, hwt, .inr ⟨rfl, rfl⟩⟩)
      | false => exact (or_iff_left fun ⟨_, _, h⟩ => h.elim (absurd hcb) nofun).symm

theorem exec_vstart_cbbad {s t : State} {slot : BitVec 8} (h : exec (.vstart slot) s = .next t) :
    t.err.getLsbD 4 = true ↔
      s.err.getLsbD 4 = true ∨ (s.run = true ∧ slot.toNat < s.cfg.nv ∧ CbbadAtStart s slot.toNat) := by
  obtain rfl : slotCommand slot startOn s = t := Host.Outcome.next.inj h
  cases hrun : s.run with
  | false => simp [slotCommand, closedSetCommand_closed hrun]
  | true =>
    rcases Nat.lt_or_ge slot.toNat s.cfg.nv with hslot | hslot
    · rw [slotCommand_ok hrun hslot, startOn_cbbad]
      simp only [hslot, true_and]
      rfl
    · rw [slotCommand_bad hrun hslot, State.raise_cbbad]
      simp [Nat.not_lt.mpr hslot]

/-! ## The tick -/

/-- R355's causes in a tick, for the slot with that voice: an active voice meets a malformed entry, or a queued record is
dropped for its block range or meets one as it starts. -/
def CbbadInTick (s : State) (v : Voice) : Prop :=
  (v.act = true ∧ malformedAtTick s v.ident.cbbase.toNat v.ident.cbcnt.toNat) ∨
    (slotState v = .freeQueued ∧ ¬ WatchdogDue s ∧ WavetableOk s v.pend.launch ∧
      (¬ BlockRangeOk s v.pend.launch ∨ malformedAtInit s v.pend.launch))

theorem promoteErr_cbbad (s : State) (v : Voice) : (promoteErr s v).getLsbD 4 = true ↔
    slotState v = .freeQueued ∧ WavetableOk s v.pend.launch ∧
      (¬ BlockRangeOk s v.pend.launch ∨ malformedAtInit s v.pend.launch) := by
  rw [promoteErr_eq]
  by_cases hq : slotState v = .freeQueued
  swap
  · rw [if_neg hq]
    exact iff_of_false (by decide) fun ⟨h, _⟩ => hq h
  rw [if_pos hq]
  by_cases hwt : WavetableOk s v.pend.launch
  swap
  · rw [if_neg hwt]
    exact iff_of_false (by decide) fun ⟨_, h, _⟩ => hwt h
  rw [if_pos hwt]
  by_cases hcb : BlockRangeOk s v.pend.launch
  · rw [if_pos hcb, ErrBit.getLsbD_maskIf, ← initBad_iff]
    exact (iff_of_eq (congrArg (· = true) (Bool.and_true _))).trans
      ⟨fun h => ⟨hq, hwt, .inr h⟩, fun ⟨_, _, h⟩ => h.elim (absurd hcb) id⟩
  · rw [if_neg hcb]
    exact iff_of_true (by decide) ⟨hq, hwt, .inl hcb⟩

theorem controlErr_cbbad (s : State) (v : Voice) : (controlErr s v).getLsbD 4 = true ↔
    v.act = true ∧ malformedAtTick s v.ident.cbbase.toNat v.ident.cbcnt.toNat := by
  rw [controlErr, ErrBit.getLsbD_maskIf]
  simp only [ErrBit.num, decide_true, Bool.and_true, Bool.and_eq_true, evalTickBad_iff, Voice.glide_ident]

/-- A firing watchdog leaves nothing to promote (R302). -/
theorem slotState_allOff_ne (v : Voice) : slotState v.allOff ≠ .freeQueued := by
  intro h
  obtain ⟨-, hpend⟩ := (slotState_eq_freeQueued_iff _).mp h
  unfold Voice.allOff at hpend
  cases hv : v.pend.valid <;> simp [hv] at hpend

/-- A voice that was not active when the tick began runs its control logic only as a promoted one (R187, R303). -/
theorem voiceAtControl_of_not_act {s : State} {v : Voice} (hact : v.act = false) (hruns : (voiceAtControl s v).act = true) :
    slotState v = .freeQueued ∧ ¬ WatchdogDue s ∧ WavetableOk s v.pend.launch ∧
      (voiceAtControl s v).ident = (initVoice s v.pend.launch).ident := by
  cases hf : s.watchdogFires with
  | true =>
    obtain ⟨hkeep, -⟩ := voiceAtControl_of_fires hf v
    exact absurd (hruns.symm.trans (hkeep.trans hact)) (by decide)
  | false =>
    have hdog := not_watchdogDue hf
    rcases voiceAtControl_of_not_fires hf v with hsame | ⟨hq, -⟩
    · exact absurd (hruns.symm.trans (hsame ▸ hact)) (by decide)
    obtain ⟨-, hpend⟩ := (slotState_eq_freeQueued_iff v).mp hq
    cases hvalid : validate s v.pend.launch with
    | none =>
      obtain ⟨hwt, -⟩ := (validate_eq_none_iff s _).mp hvalid
      exact ⟨hq, hdog, hwt, by simp [voiceAtControl, hf, promoteVoice, hact, hpend, hvalid]⟩
    | some b =>
      simp [voiceAtControl, hf, promoteVoice, hact, hpend, hvalid] at hruns

/-- One slot's part in `CBBAD` of a tick: its promotion and its control logic (R300, R355). -/
theorem slot_cbbad (s : State) (v : Voice) :
    (promoteErr s (if s.watchdogFires then v.allOff else v)).getLsbD 4 = true ∨
      (controlErr s (voiceAtControl s v)).getLsbD 4 = true ↔ CbbadInTick s v := by
  rw [promoteErr_cbbad, controlErr_cbbad]
  unfold CbbadInTick
  constructor
  · rintro (⟨hq, hcause⟩ | ⟨hruns, hbad⟩)
    · cases hf : s.watchdogFires with
      | true =>
        rw [hf, if_pos rfl] at hq
        exact absurd hq (slotState_allOff_ne v)
      | false =>
        have hdog := not_watchdogDue hf
        rw [hf] at hq hcause
        exact .inr ⟨hq, hdog, hcause⟩
    · cases hact : v.act with
      | true =>
        obtain ⟨-, hident, -⟩ := voiceAtControl_of_act s hact
        exact .inl ⟨rfl, hident ▸ hbad⟩
      | false =>
        obtain ⟨hq, hdog, hwt, hident⟩ := voiceAtControl_of_not_act hact hruns
        rw [hident] at hbad
        exact .inr ⟨hq, hdog, hwt, .inr (.inr hbad)⟩
  · rintro (⟨hact, hbad⟩ | ⟨hq, hdog, hcause⟩)
    · obtain ⟨hruns, hident, -⟩ := voiceAtControl_of_act s hact
      exact .inr ⟨hruns, hident.symm ▸ hbad⟩
    · rw [watchdogFires_eq_false hdog]
      exact .inl ⟨hq, hcause⟩

theorem State.any_voices (s : State) (p : Voice → Bool) :
    s.voices.any p = true ↔ ∃ v < s.voices.length, p (s.voice v) = true := by
  conv_lhs => rw [s.voices_eq_map_voice]
  simp

/-- A tick sets `CBBAD` if some slot does (R355). -/
theorem tick_cbbad (s : State) : (tick s).err.getLsbD 4 = true ↔
    s.err.getLsbD 4 = true ∨ ∃ v < s.voices.length, CbbadInTick s (s.voice v) := by
  obtain ⟨vdone, idle, herr⟩ := tick_err s
  rw [herr]
  simp only [Bool.or_eq_true, State.any_voices, ← slot_cbbad]
  simp only [Nat.reduceEqDiff, decide_false, Bool.and_false, Bool.false_eq_true, or_false, or_assoc, and_or_left, exists_or]

/-! ## The step -/

/-- R355's causes: those of the `VSTART` that HOST delivers, and those of the slots in a tick that is due. -/
theorem cbbadCause_iff (s : State) : CbbadCause s ↔
    (∃ slot, nextCommand s = some (.vstart slot) ∧ s.run = true ∧ slot.toNat < s.cfg.nv ∧ CbbadAtStart s slot.toNat) ∨
      (TickDue s ∧ ∃ v < s.voices.length, CbbadInTick s (s.voice v)) :=
  Iff.rfl

/-- In a tick no command is delivered. -/
theorem nextCommand_of_tickDue {s : State} (h : TickDue s) : nextCommand s = none := by
  obtain ⟨hhead, -⟩ := h
  simp [nextCommand, hhead]

theorem cbbadCause_of_vstart {s : State} {slot : BitVec 8} (h : nextCommand s = some (.vstart slot)) :
    CbbadCause s ↔ s.run = true ∧ slot.toNat < s.cfg.nv ∧ CbbadAtStart s slot.toNat := by
  rw [cbbadCause_iff]
  constructor
  · rintro (⟨slot', h', hcause⟩ | ⟨hdue, -⟩)
    · obtain rfl : slot = slot' := by simpa using h.symm.trans h'
      exact hcause
    · exact absurd (h.symm.trans (nextCommand_of_tickDue hdue)) nofun
  · exact fun hcause => .inl ⟨slot, h, hcause⟩

theorem cbbadCause_of_tickDue {s : State} (h : TickDue s) :
    CbbadCause s ↔ ∃ v < s.voices.length, CbbadInTick s (s.voice v) := by
  rw [cbbadCause_iff, nextCommand_of_tickDue h]
  exact ⟨fun hcause => hcause.elim nofun And.right, fun hcause => .inr ⟨h, hcause⟩⟩

theorem not_cbbadCause {s : State} (hstart : ∀ slot, nextCommand s ≠ some (.vstart slot)) (hdue : ¬ TickDue s) :
    ¬ CbbadCause s := by
  rintro (⟨slot, h, -⟩ | ⟨h, -⟩)
  · exact hstart slot h
  · exact hdue h

/-- A transition without a cause that keeps the bit. -/
theorem cbbad_of_kept {s t : State} (hkept : t.err.getLsbD 4 = s.err.getLsbD 4) (hnone : ¬ CbbadCause s) :
    t.err.getLsbD 4 = true ↔ s.err.getLsbD 4 = true ∨ CbbadCause s := by
  rw [hkept]
  exact (or_iff_left hnone).symm

/-- A command sets `CBBAD` as R355 says, and only `ERRCLR` with the bit in its mask clears it. -/
theorem exec_cbbad {s t : State} {i : Instr} {rest : List Event} (hi : nextCommand s = some i)
    (he : exec i { s with sched := rest } = .next t) (hclr : ∀ mask, i = .errclr mask → mask.getLsbD 4 = false) :
    t.err.getLsbD 4 = true ↔ s.err.getLsbD 4 = true ∨ CbbadCause s := by
  by_cases hstart : ∃ slot, i = .vstart slot
  · obtain ⟨slot, rfl⟩ := hstart
    rw [cbbadCause_of_vstart hi]
    exact exec_vstart_cbbad (s := { s with sched := rest }) he
  have hstart : ∀ slot, i ≠ .vstart slot := fun slot h => hstart ⟨slot, h⟩
  have hnone : ¬ CbbadCause s := by
    refine not_cbbadCause (fun slot h => ?_) fun hdue => ?_
    · exact hstart slot (Option.some.inj (hi.symm.trans h))
    · exact absurd (hi.symm.trans (nextCommand_of_tickDue hdue)) nofun
  refine cbbad_of_kept ?_ hnone
  by_cases hmask : ∃ m, i = .errclr m
  · obtain ⟨m, rfl⟩ := hmask
    obtain rfl := Host.Outcome.next.inj he
    refine (State.getLsbD_clearErr_err _ m (by decide)).trans ?_
    rw [hclr m rfl, Bool.not_false, Bool.and_true]
    exact Bool.and_true _
  · obtain ⟨t', ht', hrange⟩ := exec_raisesRangeAtMost { s with sched := rest } hstart fun m h => hmask ⟨m, h⟩
    obtain rfl := Host.Outcome.next.inj (ht'.symm.trans he)
    exact hrange.cbbad

/-- A `Refill` sets `CBBAD` only as a tick (R81). -/
theorem refill_cbbad {s : State} {rest : List Event} (hs : s.sched = .refill :: rest) :
    (refill { s with sched := rest }).err.getLsbD 4 = true ↔ s.err.getLsbD 4 = true ∨ CbbadCause s := by
  have hhead : s.sched.head? = some .refill := by rw [hs]; rfl
  by_cases hdue : TickDue s
  · have ⟨_, hrun, hempty, hidle⟩ := hdue
    rw [cbbadCause_of_tickDue hdue, refill_of_not_idle (s := { s with sched := rest }) hrun hempty hidle]
    exact tick_cbbad { s with sched := rest }
  · refine cbbad_of_kept (congrArg (BitVec.getLsbD · 4) ?_) (not_cbbadCause (fun _ => by simp [nextCommand, hhead]) hdue)
    unfold refill
    split
    · rename_i hen
      obtain ⟨hrun, hempty⟩ : s.run = true ∧ s.outrd = s.cfg.outBytes := by simpa [State.refillEnabled] using hen
      split
      · rfl
      · rename_i hidle
        exact absurd ⟨hhead, hrun, hempty, by simpa using hidle⟩ hdue
    · rfl

/-- Settles O45: the evaluations entry by entry; the step by what is at the head of the schedule. -/
theorem malformedEntriesRaiseCbbad : Obligations.MalformedEntriesRaiseCbbad := by
  refine ⟨fun s v => ⟨evalTickBad_iff s v, evalInitBad_iff s v⟩, fun s t hstep hreset hclr => ?_⟩
  cases hs : s.sched with
  | nil =>
    obtain rfl : s = t := Host.Outcome.next.inj ((step_of_sched_nil hs).symm.trans hstep)
    exact cbbad_of_kept rfl (not_cbbadCause (fun _ => by simp [nextCommand, hs]) (by simp [TickDue, hs]))
  | cons e rest =>
    cases e with
    | reset => exact absurd (by rw [hs]; rfl) hreset
    | refill =>
      obtain rfl := Host.Outcome.next.inj ((step_refill hs).symm.trans hstep)
      exact refill_cbbad hs
    | pullByte =>
      obtain rfl := Host.Outcome.next.inj ((step_pullByte hs).symm.trans hstep)
      refine cbbad_of_kept (congrArg (BitVec.getLsbD · 4) ?_)
        (not_cbbadCause (fun _ => by simp [nextCommand, hs]) (by simp [TickDue, hs]))
      unfold pullByte
      split <;> rfl
    | cmd w =>
      cases hw : decode w with
      | ok i =>
        have hi : nextCommand s = some i := by simp [nextCommand, hs, hw, Except.toOption]
        exact exec_cbbad hi ((step_cmd_of_decode_ok hs hw).symm.trans hstep) fun mask h => hclr mask (h ▸ hi)
      | error e =>
        obtain rfl := Host.Outcome.next.inj ((step_cmd_of_decode_error hs hw).symm.trans hstep)
        refine cbbad_of_kept ?_
          (not_cbbadCause (fun _ => by simp [nextCommand, hs, hw, Except.toOption]) (by simp [TickDue, hs]))
        have hillop : ErrBit.illop.mask.getLsbD 4 = false := by decide
        rw [undefinedOpcode, State.raise_err, BitVec.getLsbD_or, hillop, Bool.or_false]

end Sys2Proof.Machine
end

section
/-! The modulation graph on one block list: the transforms of a source (R108, R213 to R215), the note-on evaluation (R219), and
that the order of the blocks does not matter (R217). -/

namespace Sys2Proof.Machine
open Safety

-- One theorem at a time: each further thread would reserve a gigabyte of the check's memory.
set_option Elab.async false

/-! ## Transforms -/

/-- An absent source is full scale whatever the byte is (R215). -/
theorem transform_of_absent (s : State) (v : Voice) {sel : BitVec 16} (h : sel.toNat < 4096) (xf : BitVec 8) :
    transform s v sel xf = 32768 := by
  rw [transform, (Source.ofSelector_eq_none_iff s.cfg sel).mpr h]

/-- A source that is present goes through direction, shape and polarity (R213, R214, R215). -/
theorem transform_of_present (s : State) (v : Voice) {sel : BitVec 16} (h : 4096 ≤ sel.toNat) (xf : BitVec 8) :
    transform s v sel xf = transformValue (Xform.ofByte xf) (sourceValue s v (Source.ofSelector s.cfg sel)) := by
  have hpresent := mt (Source.ofSelector_eq_none_iff s.cfg sel).mp (Nat.not_lt.mpr h)
  unfold transform
  split
  · rename_i hnone
    exact absurd hnone hpresent
  · rfl

/-- The shape of a transform byte by its number (R108). -/
theorem Xform.shape_ofByte (b : BitVec 8) :
    (b.toNat / 4 % 4 = 0 → (Xform.ofByte b).shape = .linear) ∧ (b.toNat / 4 % 4 = 1 → (Xform.ofByte b).shape = .concave) ∧
    (b.toNat / 4 % 4 = 2 → (Xform.ofByte b).shape = .switch) ∧ (b.toNat / 4 % 4 = 3 → (Xform.ofByte b).shape = .reserved) := by
  revert b
  decide

/-- Settles O44: `transformValue` is the three stages in their order, and the shape is the byte's. -/
theorem transformsInOrder : Obligations.TransformsInOrder := by
  intro s v sel xf hs hv
  refine ⟨fun h => transform_of_absent s v h xf, fun h => ?_, abs_le.mp (abs_transform_le hs hv sel xf)⟩
  obtain ⟨hlinear, hconcave, hswitch, hreserved⟩ := Xform.shape_ofByte xf
  have hdirect := direct_le (Xform.ofByte xf) (sourceValue_le hs hv (Source.ofSelector s.cfg sel))
  rw [transform_of_present s v h]
  generalize sourceValue s v (Source.ofSelector s.cfg sel) = u at hdirect ⊢
  refine ⟨u, direct (Xform.ofByte xf) u, shapeValue (Xform.ofByte xf).shape (direct (Xform.ofByte xf) u), rfl, rfl,
    fun hk => by rw [hlinear hk]; rfl, fun hk => ?concave, fun hk => by rw [hswitch hk]; rfl,
    fun hk => by rw [hreserved hk]; rfl, rfl⟩
  obtain ⟨hcircle, -⟩ := concaveIsTheQuarterCircle
  rw [hconcave hk]
  exact hcircle _ hdirect

/-! ## The note-on evaluation -/

/-- The note-on evaluation leaves destinations 2 to 23 alone (R219). -/
theorem evalInit_dst_of_ge (s : State) (v : Voice) (k : Fin 24) (hk : 2 ≤ k.val) : (evalInit s v).dst[k] = v.dst[k] := by
  show ((v.dst.set 0 _).set 1 _)[k.val] = v.dst[k.val]
  rw [Vector.getElem_set_ne _ _ (by omega), Vector.getElem_set_ne _ _ (by omega)]

/-- The forced values that the note-on evaluation gives a voice without any (R219). -/
theorem evalInit_forced_of_unforced {s : State} {v : Voice}
    (h : v.forced = { fvelv := false, fkeyv := false, fvel := 0, fkey := 0 }) : (evalInit s v).forced = {
    fvelv := targets s v 0
    fkeyv := targets s v 1
    fvel := if targets s v 0 then forcedValue (resolved s v 0) else 0
    fkey := if targets s v 1 then forcedValue (resolved s v 1) else 0 } := by
  rw [evalInit_forced, dstSum_blockList, dstSum_blockList, h]
  rfl

/-- Settles O46: the two sums are exact, and the forced values are the clamped whole parts of them where a block has the
destination. -/
theorem noteOnEvaluationForces : Obligations.NoteOnEvaluationForces := by
  rintro s v w hs hv hunforced rfl
  have hforced := evalInit_forced_of_unforced (s := s) hunforced
  have hdst0 : (evalInit s v).dst[0].toInt = resolved s v 0 := evalInit_toInt_dst hs hv 0 (by decide)
  have hdst1 : (evalInit s v).dst[1].toInt = resolved s v 1 := evalInit_toInt_dst hs hv 1 (by decide)
  rw [hdst0, hdst1, hforced]
  refine ⟨rfl, rfl, evalInit_dst_of_ge s v, targets_iff s v (by decide), targets_iff s v (by decide), fun h => ?_, fun h => ?_,
    rfl⟩
  · exact (ite_forcedValue_toNat _ _).trans (if_pos h)
  · exact (ite_forcedValue_toNat _ _).trans (if_pos h)

/-! ## The order of the blocks -/

/-- The block list, entry by entry (R211). -/
theorem blockList_eq_map_block (s : State) (v : Voice) : blockList s v = (List.range v.ident.cbcnt.toNat).map (block s v) :=
  rfl

/-- A sum does not depend on the order of its terms (R217). -/
theorem dstSum_perm {es es' : List CbEntry} (h : es.Perm es') (s : State) (v : Voice) (k : Nat) :
    dstSum s v es k = dstSum s v es' k :=
  ((h.filter _).map _).sum_eq

theorem sourceValue_withCb (s : State) (cb : Memory 32) (v : Voice) (src : Source) :
    sourceValue { s with cb := cb } v src = sourceValue s v src := by
  cases src <;> rfl

/-- A contribution reads CB only through its entry (R212, R216). -/
theorem contribution_withCb (s : State) (cb : Memory 32) (v : Voice) :
    contribution { s with cb := cb } v = contribution s v := by
  funext e
  simp only [contribution, transform, sourceValue_withCb]

theorem dstSum_withCb (s : State) (cb : Memory 32) (v : Voice) (es : List CbEntry) (k : Nat) :
    dstSum { s with cb := cb } v es k = dstSum s v es k := by
  simp only [dstSum, contribution_withCb]

/-- Settles O42: both evaluations read CB only as a block list, of which they take sums and look for entries. -/
theorem blockOrderDoesNotMatter : Obligations.BlockOrderDoesNotMatter := by
  intro s v cb hperm
  rw [← blockList_eq_map_block, ← blockList_eq_map_block] at hperm
  have hsum : ∀ k, dstSum { s with cb := cb } v (blockList { s with cb := cb } v) k = dstSum s v (blockList s v) k :=
    fun k => (dstSum_withCb ..).trans (dstSum_perm hperm s v k)
  have hany : ∀ p : CbEntry → Bool, (blockList { s with cb := cb } v).any p = (blockList s v).any p :=
    fun p => hperm.any_eq
  have htargets : ∀ k, targets { s with cb := cb } v k = targets s v k := fun k => hany _
  exact ⟨by simp only [evalTick, hsum], by simp only [evalInit, htargets, hsum], hany _, hany _⟩

end Sys2Proof.Machine
end

section
/-! The bits of `ERR` one by one: only `Reset` and `ERRCLR` clear one, and each is set by its own cause (R222, R350 to R358). -/

namespace Sys2Proof.Machine
open Safety

-- One theorem at a time: each further thread would reserve a gigabyte of the check's memory.
set_option Elab.async false

/-! ## The causes -/

/-- What sets bit `n` of `ERR` in the transition from `s` to `t` (R351 to R358). -/
inductive ErrCause (s t : State) : Nat → Prop
  /-- `ILLOP` (R351). -/
  | illop {w : CmdWord} (hhead : s.sched.head? = some (.cmd w)) (hop : undefinedOp (w.toNat / 2 ^ 56)) : ErrCause s t 0
  /-- `RANGE` (R352). -/
  | range {i : Instr} (hi : nextCommand s = some i) (hout : outOfRange s i) (hopen : inClosedSet i = true → s.run = true) :
      ErrCause s t 1
  /-- `VBUSY` (R353). -/
  | vbusy {slot : BitVec 8} (hi : nextCommand s = some (.vstart slot)) (hrun : s.run = true) (hslot : slot.toNat < s.cfg.nv)
      (hpend : (s.voice slot.toNat).pend.valid = true) : ErrCause s t 2
  /-- `WTBAD` at a `VSTART` (R354). -/
  | wtbadStart {slot : BitVec 8} (hi : nextCommand s = some (.vstart slot)) (hrun : s.run = true)
      (hslot : slot.toNat < s.cfg.nv) (hpend : (s.voice slot.toNat).pend.valid = false) (hwt : ¬ WavetableOk s s.lr) :
      ErrCause s t 3
  /-- `WTBAD` at a promotion (R354). -/
  | wtbadPromotion (hdue : TickDue s) (hdog : ¬ WatchdogDue s) {v : Nat} (hv : v < s.voices.length)
      (hqueued : slotState (s.voice v) = .freeQueued) (hwt : ¬ WavetableOk s (s.voice v).pend.launch) : ErrCause s t 3
  /-- `CBBAD` (R355). -/
  | cbbad (hcause : CbbadCause s) : ErrCause s t 4
  /-- `WDOG` (R356). -/
  | wdog (hdue : TickDue s) (hdog : WatchdogDue s) : ErrCause s t 5
  /-- `VDONE` (R357). -/
  | vdone (hdue : TickDue s) {v : Nat} (hv : v < s.voices.length) (hsounds : (s.voice v).act = true ∨ PromotedBy s (s.voice v))
      (hact : (t.voice v).act = false) (hend : (t.voice v).flags.final = true ∨ (t.voice v).pos.ended = true) : ErrCause s t 8
  /-- `IDLE` (R358). -/
  | idle (hdue : TickDue s) (hseen : s.cmdseen = false) (hout : ∀ b ∈ t.outbuf, b = 0) (hidle : t.idle = true)
      (hsil : t.silcnt = 5) : ErrCause s t 9

/-- From `s` to `t` no bit of `ERR` is cleared, and each that is set meets `c`. -/
structure RaisesOnly (c : Nat → Prop) (s t : State) : Prop where
  keeps  : ∀ n, s.err.getLsbD n = true → t.err.getLsbD n = true
  raises : ∀ n, s.err.getLsbD n = false → t.err.getLsbD n = true → c n

theorem raisesOnly_of_err_eq {c : Nat → Prop} {s t : State} (h : t.err = s.err) : RaisesOnly c s t where
  keeps _ hs := h ▸ hs
  raises _ hs ht := by rw [h, hs] at ht; cases ht

/-- A bit after a bit is raised under a condition. -/
theorem getLsbD_or_maskIf (e : BitVec 16) (b : ErrBit) (c : Bool) (n : Nat) :
    (e ||| b.maskIf c).getLsbD n = (e.getLsbD n || (c && decide (n = b.num))) := by
  rw [BitVec.getLsbD_or, ErrBit.getLsbD_maskIf]

/-- A raised bit is the one whose error or event it is. -/
theorem raisesOnly_raise {c : Nat → Prop} {s t : State} {b : ErrBit} (h : t.err = s.err ||| b.mask) (hc : c b.num) :
    RaisesOnly c s t := by
  have hbit : ∀ n, t.err.getLsbD n = (s.err.getLsbD n || (true && decide (n = b.num))) := fun n =>
    h ▸ getLsbD_or_maskIf s.err b true n
  refine ⟨fun n hs => by rw [hbit, hs, Bool.true_or], fun n hs ht => ?_⟩
  rw [hbit, hs, Bool.false_or, Bool.true_and, decide_eq_true_iff] at ht
  exact ht ▸ hc

/-! ## Commands -/

/-- A command sets `RANGE` only for an operand out of range, and one of the closed set only while open (R105, R352). -/
theorem outOfRange_of_raised {i : Instr} {s t : State} (he : exec i s = .next t) (hs : s.err.getLsbD 1 = false)
    (ht : t.err.getLsbD 1 = true) : outOfRange s i ∧ (inClosedSet i = true → s.run = true) := by
  obtain ⟨-, -, hpassed⟩ := rangeChecksAreComplete
  obtain ⟨hclosed, -⟩ := closedSetDoesNothingWhileClosed
  constructor
  · by_contra hin
    exact absurd (hs.symm.trans (hpassed i s t hin he ht)) nofun
  · intro hi
    refine Bool.eq_true_of_not_eq_false fun hrun => ?_
    obtain rfl := Host.Outcome.next.inj ((hclosed i s hi hrun).symm.trans he)
    exact absurd (hs.symm.trans ht) nofun

/-- The checks of a start and their bits (R182, R353, R354); of bit 4, `CBBAD`, `startOn_cbbad` says more. -/
def StartCause (s : State) (v n : Nat) : Prop :=
  (n = 2 ∧ (s.voice v).pend.valid = true) ∨ (n = 3 ∧ (s.voice v).pend.valid = false ∧ ¬ WavetableOk s s.lr) ∨ n = 4

theorem startOn_raisesOnly (s : State) (v : Nat) : RaisesOnly (StartCause s v) s (startOn v s) := by
  cases hpend : (s.voice v).pend.valid with
  | true =>
    rw [startOn_of_pend hpend]
    exact raisesOnly_raise rfl (.inl ⟨rfl, hpend⟩)
  | false =>
    by_cases hwt : WavetableOk s s.lr
    swap
    · rw [startOn_of_invalid hpend (validate_wtbad hwt)]
      exact raisesOnly_raise rfl (.inr (.inl ⟨rfl, hpend, hwt⟩))
    by_cases hcb : BlockRangeOk s s.lr
    swap
    · rw [startOn_of_invalid hpend (validate_cbbad hwt hcb)]
      exact raisesOnly_raise rfl (.inr (.inr rfl))
    rw [startOn_of_valid hpend hwt hcb, launchOn]
    split
    · exact raisesOnly_of_err_eq rfl
    · rw [State.raiseAll_maskIf]
      split
      · exact raisesOnly_raise rfl (.inr (.inr rfl))
      · exact raisesOnly_of_err_eq rfl

/-- A `VSTART` sets the bit of the check that it fails, or `CBBAD` for the voice it starts (R182). -/
theorem exec_vstart_raisesOnly {s t : State} {slot : BitVec 8} (he : exec (.vstart slot) s = .next t) :
    RaisesOnly (fun n => n = 1 ∨ (s.run = true ∧ slot.toNat < s.cfg.nv ∧ StartCause s slot.toNat n)) s t := by
  obtain rfl : slotCommand slot startOn s = t := Host.Outcome.next.inj he
  by_cases hrun : s.run = true
  swap
  · rw [slotCommand, closedSetCommand_closed (Bool.eq_false_of_not_eq_true hrun)]
    exact raisesOnly_of_err_eq rfl
  rcases Nat.lt_or_ge slot.toNat s.cfg.nv with hslot | hslot
  · rw [slotCommand_ok hrun hslot]
    obtain ⟨hkeeps, hraises⟩ := startOn_raisesOnly s.mark slot.toNat
    exact ⟨hkeeps, fun n hs ht => Or.inr ⟨hrun, hslot, hraises n hs ht⟩⟩
  · rw [slotCommand_bad hrun hslot]
    exact raisesOnly_raise rfl (Or.inl rfl)

/-- `ERRCLR` aside, a command clears no bit and sets each for its cause (R352 to R355). -/
theorem exec_raisesOnly {s t : State} {i : Instr} {rest : List Event} (hi : nextCommand s = some i)
    (he : exec i { s with sched := rest } = .next t) (hclr : ∀ m, i ≠ .errclr m) : RaisesOnly (ErrCause s t) s t := by
  have hrange : s.err.getLsbD 1 = false → t.err.getLsbD 1 = true → ErrCause s t 1 := fun hs ht => by
    obtain ⟨hout, hopen⟩ := outOfRange_of_raised he hs ht
    refine .range hi ?_ hopen
    cases i <;> exact hout
  by_cases hstart : ∃ slot, i = .vstart slot
  · obtain ⟨slot, rfl⟩ := hstart
    obtain ⟨hkeeps, hraises⟩ := exec_vstart_raisesOnly he
    refine ⟨hkeeps, fun n hs ht => ?_⟩
    rcases hraises n hs ht with rfl | ⟨hrun, hslot, ⟨rfl, hpend⟩ | ⟨rfl, hpend, hwt⟩ | rfl⟩
    · exact hrange hs ht
    · exact .vbusy hi hrun hslot hpend
    · exact .wtbadStart hi hrun hslot hpend hwt
    · have hcause := (exec_cbbad hi he fun m h => absurd h (hclr m)).mp ht
      exact .cbbad (hcause.resolve_left (by rw [hs]; nofun))
  · obtain ⟨t', ht', hatMost⟩ := exec_raisesRangeAtMost { s with sched := rest } (fun slot h => hstart ⟨slot, h⟩) hclr
    obtain rfl := Host.Outcome.next.inj (ht'.symm.trans he)
    rcases hatMost with herr | herr
    · exact raisesOnly_of_err_eq herr
    · obtain ⟨hkeeps, hraises⟩ := raisesOnly_raise (s := s) (c := (· = 1)) herr rfl
      exact ⟨hkeeps, fun n hs ht => by obtain rfl := hraises n hs ht; exact hrange hs ht⟩

/-! ## The tick -/

/-- Promotion sets `WTBAD` for a record that fails that check, and else `CBBAD` (R187). -/
theorem promoteErr_raised {s : State} {v : Voice} {n : Nat} (h : (promoteErr s v).getLsbD n = true) :
    slotState v = .freeQueued ∧ (n = 3 ∧ ¬ WavetableOk s v.pend.launch ∨ n = 4) := by
  have hmask : ∀ b : ErrBit, b.mask.getLsbD n = true → n = b.num := fun b hb => by
    simpa using (b.getLsbD_maskIf true n).symm.trans hb
  rw [promoteErr_eq] at h
  split_ifs at h with hq hwt hcb
  · rw [ErrBit.getLsbD_maskIf, Bool.and_eq_true, decide_eq_true_iff] at h
    obtain ⟨-, hn⟩ := h
    exact ⟨hq, .inr hn⟩
  · exact ⟨hq, .inr (hmask .cbbad h)⟩
  · exact ⟨hq, .inl ⟨hmask .wtbad h, hwt⟩⟩
  · simp at h

/-- The control logic sets `CBBAD` only (R222, R311). -/
theorem controlErr_raised {s : State} {v : Voice} {n : Nat} (h : (controlErr s v).getLsbD n = true) : n = 4 := by
  rw [controlErr, ErrBit.getLsbD_maskIf, Bool.and_eq_true, decide_eq_true_iff] at h
  obtain ⟨-, hn⟩ := h
  exact hn

/-- Up to the audio logic a tick sets errors, no events (R300, R350). -/
theorem getLsbD_err_beforeAudio (s : State) {n : Nat} (hn : 5 < n) :
    (fxControl (controlAll (promoteAll (watchdog (delayIn s))))).err.getLsbD n = s.err.getLsbD n := by
  have hpromote : ∀ s v, (promoteErr s v).getLsbD n = false := fun s v => Bool.eq_false_of_not_eq_true fun h => by
    obtain ⟨-, h⟩ := promoteErr_raised h
    omega
  have hcontrol : ∀ s v, (controlErr s v).getLsbD n = false := fun s v => Bool.eq_false_of_not_eq_true fun h => by
    have hfour := controlErr_raised h
    omega
  have hwdog : ¬ n = ErrBit.wdog.num := Nat.ne_of_gt hn
  obtain ⟨vs, -, hwatchdog⟩ := watchdog_eq (delayIn s)
  have hbefore : (watchdog (delayIn s)).err.getLsbD n = s.err.getLsbD n := by
    rw [hwatchdog, getLsbD_or_maskIf, decide_eq_false hwdog, Bool.and_false, Bool.or_false]
    rfl
  have hpromoted : ∀ s, (promoteAll s).err.getLsbD n = s.err.getLsbD n := fun s => by
    simp only [promoteAll_eq, BitVec.getLsbD_or, getLsbD_orAll, List.any_map, Function.comp_def, hpromote]
    simp
  have hcontrolled : ∀ s, (controlAll s).err.getLsbD n = s.err.getLsbD n := fun s => by
    simp only [controlAll_eq, BitVec.getLsbD_or, getLsbD_orAll, List.any_map, Function.comp_def, hcontrol]
    simp
  calc (fxControl (controlAll (promoteAll (watchdog (delayIn s))))).err.getLsbD n
    _ = (promoteAll (watchdog (delayIn s))).err.getLsbD n := hcontrolled _
    _ = (watchdog (delayIn s)).err.getLsbD n := hpromoted _
    _ = s.err.getLsbD n := hbefore

/-- The audio logic starts from the slots after their control logic, and no event has been set yet (R300, R350). -/
theorem tickToBuses_audio (s : State) : ∃ u : State, u.voices = s.voices.map (voiceAtAudio s) ∧
    (∀ n, 5 < n → u.err.getLsbD n = s.err.getLsbD n) ∧
    (tickToBuses s).voices = (audioVoices u u.voices u.buses u.err u.freeCtr).voices ∧
    (tickToBuses s).err = (audioVoices u u.voices u.buses u.err u.freeCtr).err :=
  ⟨_, voices_beforeAudio s, fun _ => getLsbD_err_beforeAudio s, rfl, rfl⟩

/-- A slot that sounds in a tick held an active voice when it began, or its record is promoted (R187, R303). -/
theorem sounds_of_voiceAtAudio_act {s : State} {v : Voice} (h : (voiceAtAudio s v).act = true) :
    v.act = true ∨ PromotedBy s v := by
  cases hact : v.act with
  | true => exact .inl rfl
  | false =>
    obtain ⟨hq, hdog, hwt, -⟩ := voiceAtControl_of_not_act hact ((controlVoice_act ..).symm.trans h)
    refine .inr ⟨hq, hdog, hwt, by_contra fun hcb => ?_⟩
    rw [voiceAtAudio_of_dropped (watchdogFires_eq_false hdog) hq (validate_cbbad hwt hcb)] at h
    exact absurd (hact.symm.trans h) nofun

/-- A tick sets `VDONE` for a voice that sounds in it and ends (R192, R325, R357). -/
theorem tick_vdone {s : State} (hs : s.err.getLsbD 8 = false) (ht : (tick s).err.getLsbD 8 = true) :
    ∃ v < s.voices.length, ((s.voice v).act = true ∨ PromotedBy s (s.voice v)) ∧ ((tick s).voice v).act = false ∧
      (((tick s).voice v).flags.final = true ∨ ((tick s).voice v).pos.ended = true) := by
  obtain ⟨u, hbefore, hclear, hvoices, herr⟩ := tickToBuses_audio s
  obtain ⟨c, hout, -⟩ := tickOutput_eq (tickToBuses s)
  have hraised : (audioVoices u u.voices u.buses u.err u.freeCtr).err.getLsbD 8 = true := by
    rw [tick, hout, getLsbD_or_maskIf, decide_eq_false (by decide), Bool.and_false, Bool.or_false] at ht
    rwa [← herr]
  rcases audioVoices_vdone _ _ _ _ _ hraised with hset | ⟨v, x, w, hx, hsounds, hw, hact, hend⟩
  · rw [hclear 8 (by decide), hs] at hset
    cases hset
  rw [← hvoices, ← tick_voices] at hw
  rw [hbefore, List.getElem?_map, Option.map_eq_some_iff] at hx
  obtain ⟨y, hy, rfl⟩ := hx
  obtain ⟨hv, -⟩ := List.getElem?_eq_some_iff.mp hy
  have hstart : s.voice v = y := by simp [State.voice, List.getD_eq_getElem?_getD, hy]
  have hfinal : (tick s).voice v = w := by simp [State.voice, List.getD_eq_getElem?_getD, hw]
  refine ⟨v, hv, ?_⟩
  rw [hstart, hfinal]
  exact ⟨sounds_of_voiceAtAudio_act hsounds, hact, hend⟩

/-- Silent samples pack to zero bytes (R334, R335). -/
theorem packFrames_of_allSilent {ls rs : List (BitVec 16)} (h : allSilent ls rs = true) : ∀ b ∈ packFrames ls rs, b = 0 := by
  simp only [allSilent, Bool.and_eq_true, List.all_eq_true, decide_eq_true_eq] at h
  obtain ⟨hl, hr⟩ := h
  intro b hb
  obtain ⟨frame, hframe, hb⟩ := List.mem_flatten.mp hb
  rw [← List.map_uncurry_zip_eq_zipWith, List.mem_map] at hframe
  obtain ⟨⟨l, r⟩, hlr, rfl⟩ := hframe
  obtain ⟨hlmem, hrmem⟩ := List.of_mem_zip hlr
  rw [hl l hlmem, hr r hrmem] at hb
  exact List.eq_of_mem_replicate (n := 4) hb

/-- A tick sets `IDLE` as it goes idle: silent, without a command, the fifth in a row (R335, R358). -/
theorem tick_idle {s : State} (hs : s.err.getLsbD 9 = false) (ht : (tick s).err.getLsbD 9 = true) :
    s.cmdseen = false ∧ (∀ b ∈ (tick s).outbuf, b = 0) ∧ (tick s).idle = true ∧ (tick s).silcnt = 5 := by
  have hclear : (tickToBuses s).err.getLsbD 9 = false := by
    obtain ⟨u, -, hclear, -, herr⟩ := tickToBuses_audio s
    obtain ⟨c, haudio⟩ := audioVoices_err u u.voices u.buses u.err u.freeCtr
    rw [herr, haudio, getLsbD_or_maskIf, hclear 9 (by decide), hs]
    exact Bool.and_false c
  obtain ⟨c, heq, hc⟩ := tickOutput_eq (tickToBuses s)
  rw [tick, heq] at ht ⊢
  have hfull : c = true := by
    rw [getLsbD_or_maskIf, hclear, Bool.false_or] at ht
    exact (Bool.and_true c).symm.trans ht
  obtain ⟨hsilent, hseen, hfive⟩ := hc.mp hfull
  refine ⟨(tickToBuses_cmdseen s).symm.trans hseen, packFrames_of_allSilent hsilent, ?_, ?_⟩
  · rw [hfull]
    exact Bool.or_true _
  · rw [hsilent, hseen]
    exact hfive

/-- A due tick clears no bit and sets each for its cause (R354 to R358). -/
theorem tick_raisesOnly {s : State} (hdue : TickDue s) (rest : List Event) :
    RaisesOnly (ErrCause s (tick { s with sched := rest })) s (tick { s with sched := rest }) := by
  obtain ⟨vdone, idle, herr⟩ := tick_err { s with sched := rest }
  refine ⟨fun n hs => by rw [herr]; simp [hs], fun n hs ht => ?_⟩
  have hcbbad : n = 4 → ErrCause s (tick { s with sched := rest }) n := by
    rintro rfl
    have hcause := (tick_cbbad { s with sched := rest }).mp ht
    exact .cbbad ((cbbadCause_of_tickDue hdue).mpr (hcause.resolve_left (by rw [hs]; nofun)))
  have hbit := (herr n).symm.trans ht
  simp only [Bool.or_eq_true, Bool.and_eq_true, decide_eq_true_eq, State.any_voices] at hbit
  rcases hbit with ((((hset | ⟨hdog, rfl⟩) | ⟨v, hv, hpromote⟩) | ⟨v, hv, hcontrol⟩) | ⟨-, rfl⟩) | ⟨-, rfl⟩
  · exact absurd (hs.symm.trans hset) nofun
  · exact .wdog hdue ((watchdogFires_iff s).mp hdog)
  · obtain ⟨hqueued, ⟨rfl, hwt⟩ | hn⟩ := promoteErr_raised hpromote
    swap
    · exact hcbbad hn
    cases hf : State.watchdogFires { s with sched := rest } with
    | true =>
      rw [hf, if_pos rfl] at hqueued
      exact absurd hqueued (slotState_allOff_ne _)
    | false =>
      rw [hf] at hqueued hwt
      exact .wtbadPromotion hdue (not_watchdogDue hf) hv hqueued hwt
  · exact hcbbad (controlErr_raised hcontrol)
  · obtain ⟨v, hv, hsounds, hact, hend⟩ := tick_vdone (s := { s with sched := rest }) hs ht
    exact .vdone hdue hv hsounds hact hend
  · obtain ⟨hseen, hout, hidle, hsil⟩ := tick_idle (s := { s with sched := rest }) hs ht
    exact .idle hdue hseen hout hidle hsil

/-! ## The step -/

/-- A `Refill` that is no tick sets nothing (R81, R83). -/
theorem refill_raisesOnly {s : State} {rest : List Event} (hs : s.sched = .refill :: rest) :
    RaisesOnly (ErrCause s (refill { s with sched := rest })) s (refill { s with sched := rest }) := by
  have hhead : s.sched.head? = some .refill := by rw [hs]; rfl
  by_cases hopen : s.run = true ∧ s.outrd = 4 * s.cfg.chunk
  · obtain ⟨hrun, hempty⟩ := hopen
    by_cases hidle : s.idle = true
    · rw [refill_of_idle (s := { s with sched := rest }) hrun hempty hidle]
      exact raisesOnly_of_err_eq rfl
    · have hidle := Bool.eq_false_of_not_eq_true hidle
      rw [refill_of_not_idle (s := { s with sched := rest }) hrun hempty hidle]
      exact tick_raisesOnly ⟨hhead, hrun, hempty, hidle⟩ rest
  · rw [refill_of_disabled (s := { s with sched := rest })]
    · exact raisesOnly_of_err_eq rfl
    · rwa [not_and_or, Bool.not_eq_true] at hopen

/-- `Reset` and `ERRCLR` aside, a step clears no bit and sets each for its cause (R350 to R358). -/
theorem step_raisesOnly {s t : State} (hstep : step s = .next t) (hreset : s.sched.head? ≠ some .reset)
    (hclr : ∀ m, nextCommand s ≠ some (.errclr m)) : RaisesOnly (ErrCause s t) s t := by
  cases hs : s.sched with
  | nil =>
    obtain rfl : s = t := Host.Outcome.next.inj ((step_of_sched_nil hs).symm.trans hstep)
    exact raisesOnly_of_err_eq rfl
  | cons e rest =>
    cases e with
    | reset => exact absurd (by rw [hs]; rfl) hreset
    | refill =>
      obtain rfl := Host.Outcome.next.inj ((step_refill hs).symm.trans hstep)
      exact refill_raisesOnly hs
    | pullByte =>
      obtain rfl := Host.Outcome.next.inj ((step_pullByte hs).symm.trans hstep)
      refine raisesOnly_of_err_eq ?_
      unfold pullByte
      split <;> rfl
    | cmd w =>
      have hhead : s.sched.head? = some (.cmd w) := by rw [hs]; rfl
      cases hw : decode w with
      | ok i =>
        have hi : nextCommand s = some i := by simp [nextCommand, hs, hw, Except.toOption]
        exact exec_raisesOnly hi ((step_cmd_of_decode_ok hs hw).symm.trans hstep) fun m h => hclr m (h ▸ hi)
      | error e =>
        obtain rfl := Host.Outcome.next.inj ((step_cmd_of_decode_error hs hw).symm.trans hstep)
        exact raisesOnly_raise (b := .illop) rfl (.illop hhead ((decode_eq_error_iff w).mp ⟨e, hw⟩))

/-- After `Reset` no bit is set (R51, R380). -/
theorem step_err_of_reset {s t : State} (hstep : step s = .next t) (h : s.sched.head? = some .reset) : t.err = 0#16 := by
  obtain ⟨rest, hs⟩ := List.head?_eq_some_iff.mp h
  obtain rfl := Host.Outcome.next.inj ((step_reset hs).symm.trans hstep)
  rfl

/-- `ERRCLR` keeps an implemented bit that its mask does not name, and sets none (R125). -/
theorem step_err_of_errclr {s t : State} {m : BitVec 32} (hstep : step s = .next t) (h : nextCommand s = some (.errclr m))
    {n : Nat} (hn : n ≤ 5 ∨ n = 8 ∨ n = 9) : t.err.getLsbD n = (s.err.getLsbD n && !m.getLsbD n) := by
  obtain ⟨rest, he⟩ := exec_of_nextCommand h hstep
  obtain rfl := Host.Outcome.next.inj he
  refine (State.getLsbD_clearErr_err _ m (by omega)).trans ?_
  rw [decide_eq_true hn, Bool.and_true]
  rfl

/-- An implemented bit is cleared by `Reset` or `ERRCLR` and set for its cause (R125, R350, R380). -/
theorem step_errBit {s t : State} {n : Nat} (hn : n ≤ 5 ∨ n = 8 ∨ n = 9) (hstep : step s = .next t) :
    (s.err.getLsbD n = true → t.err.getLsbD n = false →
      s.sched.head? = some .reset ∨ ∃ m, nextCommand s = some (.errclr m) ∧ m.getLsbD n = true) ∧
    (s.err.getLsbD n = false → t.err.getLsbD n = true → ErrCause s t n) := by
  by_cases hreset : s.sched.head? = some .reset
  · refine ⟨fun _ _ => .inl hreset, fun _ ht => ?_⟩
    rw [step_err_of_reset hstep hreset, BitVec.getLsbD_zero] at ht
    cases ht
  by_cases hclr : ∃ m, nextCommand s = some (.errclr m)
  · obtain ⟨m, hi⟩ := hclr
    rw [step_err_of_errclr hstep hi hn]
    refine ⟨fun hs ht => .inr ⟨m, hi, ?_⟩, fun hs ht => ?_⟩
    · rwa [hs, Bool.true_and, Bool.not_eq_false'] at ht
    · rw [hs] at ht
      cases ht
  · obtain ⟨hkeeps, hraises⟩ := step_raisesOnly hstep hreset fun m hi => hclr ⟨m, hi⟩
    refine ⟨fun hs ht => ?_, hraises n⟩
    rw [hkeeps n hs] at ht
    cases ht

/-- Settles O23, bit by bit from the one cause that `ErrCause` has for each, and the two that it has for `WTBAD`. -/
theorem errorBitsFollowTheirCauses : Obligations.ErrorBitsFollowTheirCauses := by
  intro s t n hn hstep
  obtain ⟨hcleared, hraised⟩ := step_errBit hn hstep
  refine ⟨hcleared, fun hs ht => ?_⟩
  have hcause := hraised hs ht
  refine ⟨?illop, ?range, ?vbusy, ?wtbad, ?cbbad, ?wdog, ?vdone, ?idle⟩ <;> rintro rfl
  case illop => cases hcause with | illop hhead hop => exact ⟨_, hhead, hop⟩
  case range => cases hcause with | range hi hout hopen => exact ⟨_, hi, hout, hopen⟩
  case vbusy => cases hcause with | vbusy hi hrun hslot hpend => exact ⟨_, hi, hrun, hslot, hpend⟩
  case wtbad =>
    cases hcause with
    | wtbadStart hi hrun hslot hpend hwt => exact .inl ⟨_, hi, hrun, hslot, hpend, hwt⟩
    | wtbadPromotion hdue hdog hv hqueued hwt => exact .inr ⟨hdue, hdog, _, hv, hqueued, hwt⟩
  case cbbad => cases hcause with | cbbad hcause => exact hcause
  case wdog => cases hcause with | wdog hdue hdog => exact ⟨hdue, hdog⟩
  case vdone => cases hcause with | vdone hdue hv hsounds hact hend => exact ⟨hdue, _, hv, hsounds, hact, hend⟩
  case idle => cases hcause with | idle hdue hseen hout hidle hsil => exact ⟨hdue, hseen, hout, hidle, hsil⟩

end Sys2Proof.Machine
end

section
/-! Envelope generators and oscillators step by step: the gate, the stages, how long a release lasts, the triangle (R242 to
R254). -/

namespace Sys2Proof.Machine
open Safety

-- One theorem at a time: each further thread would reserve a gigabyte of the check's memory.
set_option Elab.async false

/-! ## Times, levels and increments -/

/-- `EgTime` as a clamp of the destination's whole part (R243). -/
theorem egTime_eq_max_min (x : Int) : (egTime x : Int) = max 1 (min 65535 (x / 65536)) := by
  unfold egTime
  rw [clamp_eq_max_min (by decide), asr_eq]
  omega

/-- A level destination as a clamp of half the destination (R221, R242). -/
theorem levelOf_eq_max_min (x : Int) : (levelOf x : Int) = max 0 (min 32768 (x / 2)) := by
  unfold levelOf
  rw [clamp_eq_max_min (by decide), asr_eq]
  omega

/-- `EgStep` in exact numbers: the subtraction does not reach below 0 (R243). -/
theorem egStep_cast (t : Nat) : (egStep t : Int) = (32768 + t - 1) / t := by
  have hsub : ((32768 + t - 1 : Nat) : Int) = 32768 + t - 1 := by omega
  rw [← hsub, ← Int.natCast_ediv]
  rfl

/-- `EgStep` of an `EgTime`, from the destination (R243). -/
theorem egStep_egTime (x : Int) : (egStep (egTime x) : Int) =
    (32768 + max 1 (min 65535 (x / 65536)) - 1) / max 1 (min 65535 (x / 65536)) := by
  rw [← egTime_eq_max_min]
  exact egStep_cast _

/-- `EgStep` is the least step that covers full scale in the given time (R243). -/
theorem le_egStep_mul {r : Nat} (hr : 0 < r) : 32768 ≤ egStep r * r := by
  have hceil := Nat.lt_mul_div_succ (32768 + r - 1) hr
  unfold egStep one
  generalize (32768 + r - 1) / r = q at hceil ⊢
  have hexpand : r * (q + 1) = q * r + r := by ring
  omega

theorem egStep_pos {r : Nat} (hr : 0 < r) : 0 < egStep r := by
  have hcover := le_egStep_mul hr
  exact Nat.pos_of_ne_zero fun hzero => by simp [hzero] at hcover

theorem toNat_ofNat16_of_le {n : Nat} (h : n ≤ 32768) : (BitVec.ofNat 16 n).toNat = n := by
  rw [BitVec.toNat_ofNat, Nat.mod_eq_of_lt (by omega)]

/-! ## Envelope generators -/

/-- The gate by its destination: a closed one releases, an open one starts an idle generator (R244). -/
theorem egGate_eq (st : EgStage) (don : Int) : egGate st (decide (0 < don)) =
    if don ≤ 0 ∧ (st = .attack ∨ st = .decay ∨ st = .sustain) then .release
    else if 0 < don ∧ st = .idle then .attack else st := by
  by_cases hopen : 0 < don
  · cases st <;> simp [hopen, egGate]
  · cases st <;> simp [hopen, Int.not_lt.mp hopen, egGate]

section
variable {level : Nat} (a d sl r : Nat)

/-- An attack rises to full scale, and becomes the decay there (R245). -/
theorem egStepStage_attack :
    (egStepStage .attack level a d sl r).level.toNat = min 32768 (level + egStep a) ∧
    (egStepStage .attack level a d sl r).stage =
      if (egStepStage .attack level a d sl r).level.toNat = 32768 then .decay else .attack := by
  have hlevel : (egStepStage .attack level a d sl r).level.toNat = min 32768 (level + egStep a) :=
    toNat_ofNat16_of_le (Nat.min_le_left ..)
  rw [hlevel]
  exact ⟨rfl, rfl⟩

/-- A decay falls to the sustain level, and becomes the sustain there (R246). -/
theorem egStepStage_decay (hl : level ≤ 32768) (hs : sl ≤ 32768) :
    if (level : Int) - egStep d ≤ sl then
      (egStepStage .decay level a d sl r).level.toNat = sl ∧ (egStepStage .decay level a d sl r).stage = .sustain
    else
      ((egStepStage .decay level a d sl r).level.toNat : Int) = level - egStep d ∧
        (egStepStage .decay level a d sl r).stage = .decay := by
  have hiff : (level : Int) - egStep d ≤ sl ↔ level ≤ sl + egStep d := by omega
  simp only [hiff, egStepStage]
  split
  · exact ⟨toNat_ofNat16_of_le hs, rfl⟩
  · rw [toNat_ofNat16_of_le (by omega)]
    exact ⟨by omega, rfl⟩

/-- A sustain follows its level (R247). -/
theorem egStepStage_sustain (hs : sl ≤ 32768) :
    (egStepStage .sustain level a d sl r).level.toNat = sl ∧ (egStepStage .sustain level a d sl r).stage = .sustain :=
  ⟨toNat_ofNat16_of_le hs, rfl⟩

/-- A release falls to 0, and is done there (R248). -/
theorem egStepStage_release (hl : level < 65536) :
    (egStepStage .release level a d sl r).level.toNat = level - egStep r ∧
    (egStepStage .release level a d sl r).stage =
      if (egStepStage .release level a d sl r).level = 0 then .done else .release := by
  have hlevel : (egStepStage .release level a d sl r).level.toNat = level - egStep r := by
    show (BitVec.ofNat 16 (level - egStep r)).toNat = level - egStep r
    rw [BitVec.toNat_ofNat, Nat.mod_eq_of_lt (by omega)]
  have hzero : (egStepStage .release level a d sl r).level = 0 ↔ level - egStep r = 0 := by
    rw [← BitVec.toNat_inj, hlevel]
    rfl
  refine ⟨hlevel, ?_⟩
  simp only [hzero]
  rfl

/-- A generator that has not begun or is done rests (R249). -/
theorem egStepStage_rest {st : EgStage} (h : st = .idle ∨ st = .done) (level : BitVec 16) :
    egStepStage st level.toNat a d sl r = { stage := st, level := level } := by
  rcases h with rfl | rfl <;> simp [egStepStage]

end

/-- Settles O50: the gate by `egGate_eq`, and each stage by its own equation. -/
theorem envelopesStepByStage : Obligations.EnvelopesStepByStage := by
  rintro e don da dd ds dr ⟨hlevel, hidle, hdone⟩
  refine ⟨_, egGate e.stage (decide (0 < don)), egStep (egTime da), egStep (egTime dd), egStep (egTime dr), levelOf ds, rfl,
    egStep_egTime da, egStep_egTime dd, egStep_egTime dr, levelOf_eq_max_min ds, egGate_eq .., ?_⟩
  have hrest : egGate e.stage (decide (0 < don)) = .idle ∨ egGate e.stage (decide (0 < don)) = .done → e.level = 0 :=
    Or.rec (fun h => hidle (egGate_eq_idle h)) fun h => hdone (egGate_eq_done h)
  unfold egAdvance
  generalize egGate e.stage (decide (0 < don)) = st at hrest ⊢
  refine ⟨?attack, ?decay, ?sustain, ?release, fun h => ?rest⟩
  case attack => rintro rfl; exact egStepStage_attack ..
  case decay => rintro rfl; exact egStepStage_decay _ _ _ _ hlevel (levelOf_le ds)
  case sustain => rintro rfl; exact egStepStage_sustain _ _ _ _ (levelOf_le ds)
  case release =>
    rintro rfl
    obtain ⟨hfall, hstage⟩ := egStepStage_release (egTime da) (egTime dd) (levelOf ds) (egTime dr) e.level.isLt
    exact ⟨by rw [hfall]; omega, hstage⟩
  case rest =>
    rw [egStepStage_rest _ _ _ _ h]
    exact ⟨rfl, hrest h⟩

/-! ## How long a release lasts -/

/-- A released generator falls, whatever its gate, and is done when one step covers its level: there is no way back from the
release (R244, R248). -/
theorem egAdvance_of_release {e : Eg} (h : e.stage = .release) (don da dd ds dr : Int) :
    (egAdvance e don da dd ds dr).level.toNat = e.level.toNat - egStep (egTime dr) ∧
    (egAdvance e don da dd ds dr).stage = if e.level.toNat ≤ egStep (egTime dr) then .done else .release := by
  have hgate : ∀ gate, egGate .release gate = .release := fun _ => rfl
  unfold egAdvance
  rw [h, hgate]
  obtain ⟨hlevel, -⟩ := egStepStage_release (egTime da) (egTime dd) (levelOf ds) (egTime dr) e.level.isLt
  exact ⟨hlevel, if_congr Nat.sub_eq_zero_iff_le rfl rfl⟩

/-- As long as its steps do not reach 0 a release goes on, one step lower at a time (R248). -/
theorem iterate_egAdvance_of_release {e : Eg} (h : e.stage = .release) (don da dd ds dr : Int) (k : Nat)
    (hk : k = 0 ∨ k * egStep (egTime dr) < e.level.toNat) :
    ((fun x => egAdvance x don da dd ds dr)^[k] e).stage = .release ∧
    ((fun x => egAdvance x don da dd ds dr)^[k] e).level.toNat = e.level.toNat - k * egStep (egTime dr) := by
  induction k with
  | zero => exact ⟨h, by simp⟩
  | succ k ih =>
    have hsteps : (k + 1) * egStep (egTime dr) = k * egStep (egTime dr) + egStep (egTime dr) := Nat.succ_mul ..
    have hbelow : (k + 1) * egStep (egTime dr) < e.level.toNat := hk.resolve_left (Nat.succ_ne_zero k)
    obtain ⟨hstage, hlevel⟩ := ih (.inr (by omega))
    rw [Function.iterate_succ_apply']
    obtain ⟨hfall, hnext⟩ := egAdvance_of_release hstage don da dd ds dr
    exact ⟨hnext.trans (if_neg (by omega)), by omega⟩

/-- The step that reaches 0 ends the release (R248). -/
theorem iterate_egAdvance_ends {e : Eg} (h : e.stage = .release) (don da dd ds dr : Int) {k : Nat}
    (hk : k = 0 ∨ k * egStep (egTime dr) < e.level.toNat) (hend : e.level.toNat ≤ (k + 1) * egStep (egTime dr)) :
    ((fun x => egAdvance x don da dd ds dr)^[k + 1] e).stage = .done ∧
    ((fun x => egAdvance x don da dd ds dr)^[k + 1] e).level = 0 := by
  have hsteps : (k + 1) * egStep (egTime dr) = k * egStep (egTime dr) + egStep (egTime dr) := Nat.succ_mul ..
  obtain ⟨hstage, hlevel⟩ := iterate_egAdvance_of_release h don da dd ds dr k hk
  rw [Function.iterate_succ_apply']
  obtain ⟨hfall, hnext⟩ := egAdvance_of_release hstage don da dd ds dr
  have hlast : ((fun x => egAdvance x don da dd ds dr)^[k] e).level.toNat ≤ egStep (egTime dr) := by omega
  exact ⟨hnext.trans (if_pos hlast), BitVec.eq_of_toNat_eq (hfall.trans (Nat.sub_eq_zero_of_le hlast))⟩

/-- The number of steps of size `n` that bring a level to 0, at least one: the last is needed, and it suffices. -/
theorem releaseSteps_spec (level : Nat) {n m : Nat} (hn : 0 < n) (hm : m = max 1 ((level + n - 1) / n)) :
    1 ≤ m ∧ level ≤ m * n ∧ ∀ k < m, k = 0 ∨ k * n < level := by
  have hiff : ∀ k, k * n < level ↔ k + 1 ≤ (level + n - 1) / n := fun k => by
    rw [Nat.le_div_iff_mul_le hn, Nat.succ_mul]
    omega
  refine ⟨by omega, Nat.not_lt.mp fun hlt => ?_, fun k hk => ?_⟩
  · have := (hiff m).mp hlt
    omega
  · rw [hiff]
    omega

/-- Settles O51: the release is at the level less k steps after k of them, and `EgStep` covers full scale in R steps. -/
theorem releaseEndsInTime : Obligations.ReleaseEndsInTime := by
  intro e don da dd ds dr r m hrelease hlevel hr hm
  obtain rfl : r = egTime dr := Int.ofNat_inj.mp (hr.trans (egTime_eq_max_min dr).symm)
  obtain ⟨hrpos, -⟩ := egTime_bounds dr
  have hnpos := egStep_pos hrpos
  obtain ⟨hone, hcover, hbefore⟩ := releaseSteps_spec e.level.toNat hnpos hm
  have hinTime : m ≤ egTime dr := by
    by_contra hlate
    rcases hbefore (egTime dr) (by omega) with hzero | hleft
    · omega
    · have := le_egStep_mul hrpos
      rw [Nat.mul_comm] at hleft
      omega
  obtain ⟨k, rfl⟩ : ∃ k, m = k + 1 := ⟨m - 1, by omega⟩
  obtain ⟨hdone, hzero⟩ := iterate_egAdvance_ends hrelease don da dd ds dr (hbefore k (by omega)) hcover
  exact ⟨hinTime, hdone, hzero, fun j hj => (iterate_egAdvance_of_release hrelease don da dd ds dr j (hbefore j hj)).1⟩

/-! ## Oscillators -/

/-- A delay tick: one tick less to wait, the centre of the triangle, the phase where it was (R254). -/
theorem lfoAdvance_of_delay {o : Lfo} (h : o.dcnt ≠ 0) (cfg : Config) (f : Int) :
    lfoAdvance cfg o f = { o with dcnt := o.dcnt - 1, out := 16384 } := if_neg h

/-- A tick of a running oscillator (R254). -/
theorem lfoAdvance_of_running {o : Lfo} (h : o.dcnt = 0) (cfg : Config) (f : Int) : lfoAdvance cfg o f =
    { o with ph := o.ph + BitVec.ofNat 32 (lfoInc cfg f), out := lfoTri (o.ph + BitVec.ofNat 32 (lfoInc cfg f)) } := if_pos h

/-- q of R253 in plain arithmetic. -/
theorem lfoQ_eq (ph : BitVec 32) : lfoQ ph = (ph.toNat + 1073741824) % 4294967296 / 65536 := by
  rw [lfoQ, Nat.shiftRight_eq_div_pow, BitVec.toNat_add]
  rfl

/-- The triangle by its q (R253). -/
theorem lfoTri_toNat (ph : BitVec 32) : (lfoTri ph).toNat = if lfoQ ph < 32768 then lfoQ ph else 65536 - lfoQ ph := by
  have := lfoQ_lt ph
  exact toNat_ofNat16_of_le (by split <;> omega)

/-- Settles O52: a delay tick, or one of a running oscillator. -/
theorem lfosStepOrWait : Obligations.LfosStepOrWait := by
  refine fun cfg o f => ⟨fun hdelay => ?_, fun hrun => ?_⟩
  · rw [lfoAdvance_of_delay hdelay]
    have hpos : o.dcnt.toNat ≠ 0 := fun hzero => hdelay (BitVec.eq_of_toNat_eq hzero)
    exact ⟨by bv_omega, rfl, rfl⟩
  · rw [lfoAdvance_of_running hrun]
    refine ⟨lfoInc cfg f, _, rfl, hrun, ?_, rfl, ?_⟩
    · rw [BitVec.toNat_add, BitVec.toNat_ofNat, Nat.add_mod_mod]
    · rw [← lfoQ_eq]
      exact lfoTri_toNat _

end Sys2Proof.Machine
end

section
/-! No envelope of a sounding voice goes back: its generators move in a tick only, and there from stage to stage forward (R240,
R244, R248). -/

namespace Sys2Proof.Machine
open Safety

-- One theorem at a time: each further thread would reserve a gigabyte of the check's memory.
set_option Elab.async false

/-! ## One generator -/

/-- `x` may follow `e` in a voice that goes on: it is in no earlier stage, and not above `e` once that is released. -/
def EgFollows (e x : Eg) : Prop :=
  stageNumber e.stage ≤ stageNumber x.stage ∧ (e.stage = .release → x.level ≤ e.level)

theorem EgFollows.refl (e : Eg) : EgFollows e e := ⟨le_rfl, fun _ => BitVec.le_refl _⟩

/-- The gates lead forward (R244). -/
theorem stageNumber_le_egGate (st : EgStage) (gate : Bool) : stageNumber st ≤ stageNumber (egGate st gate) := by
  cases st <;> cases gate <;> decide

/-- Each stage stays or leads to the next (R245 to R249). -/
theorem stageNumber_le_egStepStage (st : EgStage) (level a d sl r : Nat) :
    stageNumber st ≤ stageNumber (egStepStage st level a d sl r).stage := by
  cases st with
  | idle | sustain | done => exact le_rfl
  | attack | decay | release =>
    simp only [egStepStage]
    split <;> simp [stageNumber]

/-- A generator's step follows it, whatever its destinations (R244 to R249). -/
theorem egFollows_egAdvance (e : Eg) (don da dd ds dr : Int) : EgFollows e (egAdvance e don da dd ds dr) := by
  refine ⟨(stageNumber_le_egGate ..).trans (stageNumber_le_egStepStage ..), fun h => ?_⟩
  obtain ⟨hlevel, -⟩ := egAdvance_of_release h don da dd ds dr
  exact BitVec.le_def.mpr (hlevel ▸ Nat.sub_le ..)

/-! ## A tick -/

/-- The control logic advances both generators by one step, on the destinations it has evaluated (R313). -/
theorem controlLogic_egs (s : State) (v : Voice) :
    EgFollows v.eg0 (controlLogic s v).eg0 ∧ EgFollows v.eg1 (controlLogic s v).eg1 := by
  simp only [controlLogic, Voice.firstTick_eg0, Voice.firstTick_eg1, Voice.setAudio_eg0, Voice.setAudio_eg1,
    Voice.markFinal_eg0, Voice.markFinal_eg1, Voice.stepShut_eg0, Voice.stepShut_eg1, Voice.stepEgs_eg0, Voice.stepEgs_eg1,
    Voice.stepLfos_eg0, Voice.stepLfos_eg1, evalTick_eg0, evalTick_eg1, Voice.glide_eg0, Voice.glide_eg1]
  exact ⟨egFollows_egAdvance .., egFollows_egAdvance ..⟩

/-- What comes before the control logic leaves an active voice its generators (R302, R303). -/
theorem voiceAtControl_egs (s : State) {v : Voice} (hact : v.act = true) :
    (voiceAtControl s v).eg0 = v.eg0 ∧ (voiceAtControl s v).eg1 = v.eg1 := by
  cases hf : s.watchdogFires with
  | true =>
    rw [voiceAtControl_eq_allOff hf]
    simp [Voice.allOff, hact]
  | false => simp [voiceAtControl, hf, promoteVoice, hact]

/-- A tick advances the generators of an active voice, and its audio logic leaves them (R300, R313, R325). -/
theorem tick_egs {s : State} {v : Nat} (hact : (s.voice v).act = true) :
    EgFollows (s.voice v).eg0 ((tick s).voice v).eg0 ∧ EgFollows (s.voice v).eg1 ((tick s).voice v).eg1 := by
  have hv : v < s.voices.length := by
    by_contra hge
    rw [s.voice_ge (Nat.not_lt.mp hge)] at hact
    cases hact
  obtain ⟨hact', -⟩ := voiceAtControl_of_act s hact
  obtain ⟨heg0, heg1⟩ := voiceAtControl_egs s hact
  obtain ⟨ctr, htick⟩ := tick_voice s hv
  have haudio : voiceAtAudio s (s.voice v) = controlLogic s (voiceAtControl s (s.voice v)) := by
    rw [voiceAtAudio, controlVoice, if_pos hact']
  rw [haudio, if_pos ((controlLogic_act ..).trans hact'), Voice.finish_eq] at htick
  rw [htick, ← heg0, ← heg1]
  exact controlLogic_egs s _

/-! ## A command -/

/-- A command leaves an active voice its generators: it starts a new voice on an inactive slot only (R182, R186). -/
theorem VoiceEdit.egs {s : State} {v w : Voice} (h : VoiceEdit s v w) (hact : v.act = true) :
    w.eg0 = v.eg0 ∧ w.eg1 = v.eg1 := by
  rcases h.frame with ⟨hfree, -⟩ | hkept
  · rw [hact] at hfree
    cases hfree
  · rw [hkept]
    exact ⟨rfl, rfl⟩

/-- A slot after one slot was edited was edited itself, or is as it was. -/
theorem voiceEdit_updVoice {s : State} {n : Nat} {f : Voice → Voice} (hf : VoiceEdit s (s.voice n) (f (s.voice n))) (v : Nat) :
    VoiceEdit s (s.voice v) ((s.updVoice n f).voice v) := by
  rcases s.updVoice_voice n v f with h | ⟨rfl, h⟩ <;> rw [h]
  · exact .same _
  · exact hf

theorem voiceEdit_mapVoices {s t : State} {f : Voice → Voice} (hf : ∀ x, VoiceEdit s x (f x)) (ht : t.voices = s.voices.map f)
    (v : Nat) : VoiceEdit s (s.voice v) (t.voice v) := by
  rcases State.mapVoices_voice ht v with h | h <;> rw [h]
  · exact .same _
  · exact hf _

/-- A start edits its slot: it queues the record there, or starts it, or is refused (R182). -/
theorem voiceEdit_startOn (n : Nat) (s : State) (v : Nat) : VoiceEdit s (s.voice v) ((startOn n s).voice v) := by
  unfold startOn
  split
  · exact .same _
  · rename_i hpend
    have hpend := Bool.eq_false_of_not_eq_true hpend
    split
    · exact .same _
    · rename_i hvalid
      unfold launchOn
      split
      · rename_i hact
        exact voiceEdit_updVoice (.take _ hact hpend hvalid) v
      · rename_i hact
        exact voiceEdit_updVoice (f := fun _ => initVoice s s.lr) (.init _ (Bool.eq_false_of_not_eq_true hact) hpend hvalid) v

/-- The stages of a slot command leave the slots alone, so each is as the command's own part leaves it (R103). -/
theorem voiceEdit_slotCommand {s : State} {slot : BitVec 8} {f : Nat → State → State} {v : Nat} (hrun : s.run = true)
    (hf : VoiceEdit s.mark (s.voice v) ((f slot.toNat s.mark).voice v)) :
    VoiceEdit s.mark (s.voice v) ((slotCommand slot f s).voice v) := by
  rcases Nat.lt_or_ge slot.toNat s.cfg.nv with h | h
  · rwa [slotCommand_ok hrun h]
  · rw [slotCommand_bad hrun h]
    exact .same _

theorem voiceEdit_channelCommand {s : State} {chan : BitVec 8} {f : BitVec 4 → State → State} {v : Nat} (hrun : s.run = true)
    (hf : VoiceEdit s.mark (s.voice v) ((f (chan.setWidth 4) s.mark).voice v)) :
    VoiceEdit s.mark (s.voice v) ((channelCommand chan f s).voice v) := by
  rcases Nat.lt_or_ge 15 chan.toNat with h | h
  · rw [channelCommand_bad hrun h]
    exact .same _
  · rwa [channelCommand_ok hrun h]

/-- The commands that write slots do to each one of the edits that `VoiceEdit` lists. -/
theorem voiceEdit_exec {s t : State} {i : Instr} (hi : WritesSlot i) (hrun : s.run = true) (he : exec i s = .next t) (v : Nat) :
    VoiceEdit s.mark (s.voice v) (t.voice v) := by
  cases hi <;> obtain rfl := Host.Outcome.next.inj he
  case choff chan d =>
    exact voiceEdit_channelCommand hrun (voiceEdit_mapVoices (s := s.mark) (fun x => .off x (chan.setWidth 4) (bit0 d)) rfl v)
  case chrel chan d =>
    exact voiceEdit_channelCommand hrun (voiceEdit_mapVoices (s := s.mark) (fun x => .rel x _ _ _) rfl v)
  case vstart slot => exact voiceEdit_slotCommand hrun (voiceEdit_startOn _ s.mark v)
  case voff slot d =>
    refine voiceEdit_slotCommand hrun ?_
    unfold checkRange
    split
    · exact voiceEdit_updVoice (s := s.mark) (f := fun x => x.noteOff (low2 d).toNat) (.note _ _) v
    · exact .same _
  case vsil slot =>
    refine voiceEdit_slotCommand hrun (voiceEdit_updVoice (s := s.mark) ?_ v)
    split
    · rename_i hact
      exact .sil _ hact
    · exact .same _
  case vcancel slot => exact voiceEdit_slotCommand hrun (voiceEdit_updVoice (s := s.mark) (.cancel _) v)
  case vglide slot =>
    exact voiceEdit_slotCommand hrun (voiceEdit_updVoice (s := s.mark) (f := fun x => x.glideTo s.lr) (.glide _ _) v)
  case ppwr slot d =>
    refine voiceEdit_slotCommand hrun (voiceEdit_updVoice (s := s.mark) ?_ v)
    split
    · exact .press _ _
    · exact .same _

/-- `WWR` leaves every voice its generators: it notes the rewritten sample at most (R161, R386). -/
theorem exec_wwr_egs {s t : State} {d : BitVec 32} (h : exec (.wwr d) s = .next t) (v : Nat) :
    (t.voice v).eg0 = (s.voice v).eg0 ∧ (t.voice v).eg1 = (s.voice v).eg1 := by
  rcases Nat.lt_or_ge s.wptr.toNat s.cfg.waveSize with hlt | hge
  · obtain rfl := Host.Outcome.next.inj ((exec_wwr_of_lt d hlt).symm.trans h)
    rcases State.mapVoices_voice (s := s.mark) (t := s.mark.storeSample (low16 d)) rfl v with hkept | hnoted
    · rw [hkept]
      exact ⟨rfl, rfl⟩
    · rw [hnoted, Voice.noteRewrite_eg0, Voice.noteRewrite_eg1]
      exact ⟨rfl, rfl⟩
  · obtain rfl := Host.Outcome.next.inj ((exec_wwr_of_ge d hge).symm.trans h)
    exact ⟨rfl, rfl⟩

/-! ## The step -/

/-- Apart from a tick, a step leaves the generators of a voice that goes on as they are. -/
theorem step_egs_of_not_tickDue {s t : State} {v : Nat} (hstep : step s = .next t) (hdue : ¬ TickDue s)
    (hact : (s.voice v).act = true) (hgoes : (t.voice v).act = true) :
    (t.voice v).eg0 = (s.voice v).eg0 ∧ (t.voice v).eg1 = (s.voice v).eg1 := by
  have hended : ∀ cfg, ((State.init cfg).voice v).act ≠ true := fun cfg => by
    rw [State.init_voice]
    nofun
  obtain ⟨rest, hwrites⟩ := step_writes hstep
  cases hwrites with
  | waits e => exact ⟨rfl, rfl⟩
  | idles hhead hrun hempty => exact ⟨rfl, rfl⟩
  | pulls hhead hrun hfull => exact ⟨rfl, rfl⟩
  | resets hhead => exact absurd hgoes (hended s.cfg)
  | ticks h => exact absurd h hdue
  | command hi h =>
    obtain ⟨rest', he⟩ := exec_of_nextCommand hi hstep
    cases h with
    | closes hrun => exact absurd hgoes (hended s.cfg)
    | wwr d w p vs => exact exec_wwr_egs he v
    | slot hw hrun vs e => exact (voiceEdit_exec (s := { s with sched := rest' }) hw hrun he v).egs hact
    | _ => exact ⟨rfl, rfl⟩

/-- Settles O26: in a tick each generator follows itself, any other step leaves those of a voice that goes on. -/
theorem envelopesNeverRetrigger : Obligations.EnvelopesNeverRetrigger := by
  intro s t v hstep hact hgoes
  suffices hfollows : EgFollows (s.voice v).eg0 (t.voice v).eg0 ∧ EgFollows (s.voice v).eg1 (t.voice v).eg1 by
    obtain ⟨⟨hstage0, hlevel0⟩, hstage1, hlevel1⟩ := hfollows
    exact ⟨hstage0, hstage1, hlevel0, hlevel1⟩
  by_cases hdue : TickDue s
  · obtain ⟨rest, rfl⟩ := step_of_tickDue hdue hstep
    exact tick_egs (s := { s with sched := rest }) hact
  · obtain ⟨heg0, heg1⟩ := step_egs_of_not_tickDue hstep hdue hact hgoes
    rw [heg0, heg1]
    exact ⟨.refl _, .refl _⟩

end Sys2Proof.Machine
end

section
/-! The audio logic of one voice frame by frame: where it reads, and what it adds to the buses (R278, R320 to R324). -/

namespace Sys2Proof.Machine

/-- The read position at the start of each frame of a chunk: the step of a frame is its ramp value (R278, R324). -/
def framePos (v : Voice) (n : Nat) : Nat → Pos
  | 0 => v.pos
  | j + 1 => advance v.desc (framePos v n j) (v.audio.stepAt j n)

/-- What frame `j` adds to the buses: its sample through the amplitude ramp, then routed (R321 to R323). -/
def frameAdd (s : State) (v : Voice) (j : Nat) : FrameAdd :=
  routeSample v.audio
    (gained (interp s [] v.desc (framePos v s.cfg.chunk j) 0).1 (v.audio.ampAt j s.cfg.chunk))

/-- A Q15 gain is a floor division (R9). -/
theorem gained_eq (y : Int) (g : Nat) : gained y g = y * g / 32768 := asr_eq _ 15

/-- Frames from the `j`-th on end where the recursion of the positions does. -/
theorem renderFrames_pos_eq (s : State) (v : Voice) (k j ctr : Nat) :
    (renderFrames s v k j (framePos v s.cfg.chunk j) ctr).pos = framePos v s.cfg.chunk (j + k) := by
  induction k generalizing j ctr with
  | zero => rfl
  | succ k ih =>
    rw [show j + (k + 1) = j + 1 + k by omega, ← ih (j + 1)]
    rfl

/-- A voice whose view has not been rewritten renders the frames one after the other (R320). -/
theorem renderFrames_getElem? {s : State} {v : Voice} (hstale : v.stale = []) {k i : Nat} (hi : i < k) (j ctr : Nat) :
    (renderFrames s v k j (framePos v s.cfg.chunk j) ctr).frames[i]? = some (frameAdd s v (j + i)) := by
  induction k generalizing i j ctr with
  | zero => exact absurd hi (Nat.not_lt_zero i)
  | succ k ih =>
    cases i with
    | zero =>
      simp only [renderFrames, hstale, List.getElem?_cons_zero]
      rw [interp_of_not_stale s v.desc _ ctr 0]
      rfl
    | succ i =>
      rw [show j + (i + 1) = j + 1 + i by omega, ← ih (Nat.lt_of_succ_lt_succ hi) (j + 1)]
      rfl

/-- Settles O38: the frames of a chunk and their positions by induction on the frames still to render. -/
theorem audioLogicRendersFrameByFrame : Obligations.AudioLogicRendersFrameByFrame := by
  intro s v ctr hstale
  refine ⟨framePos v s.cfg.chunk, rfl, fun j => rfl, ?_, renderFrames_length s v _ 0 v.pos ctr, fun j hj => ?_⟩
  · have hpos := renderFrames_pos_eq s v s.cfg.chunk 0 ctr
    rwa [Nat.zero_add] at hpos
  · refine ⟨_, _, _, rfl, rfl, rfl, ?_⟩
    have hframe := renderFrames_getElem? (s := s) hstale hj 0 ctr
    rw [Nat.zero_add] at hframe
    refine hframe.trans (congrArg some ?_)
    simp only [frameAdd, routeSample, gained_eq]
    rfl

end Sys2Proof.Machine
end

section
/-! The resampler: what a position reads, where a frame's step takes it, and the loops at unit pitch (R274 to R277, R279 to
R281). -/

namespace Sys2Proof.Machine
open Safety

/-! ## What a position reads -/

/-- `Next` meets the end of the stream at the last sample with no loop in force, and nowhere else (R274). -/
theorem Pos.neighbour_ended_iff (p : Pos) (d : Desc) :
    (p.neighbour d).ended = true ↔ (p.loopen = false ∨ d.lmode = .off) ∧ d.len.toNat ≤ p.srci.toNat + 1 := by
  by_cases hlinear : p.loopen = false ∨ d.lmode = .off
  · rw [Pos.neighbour_linear hlinear, nextLinear]
    split <;> simp_all
  · have hopen : p.loopen = true := by simpa using (not_or.mp hlinear).1
    refine iff_of_false (fun hended => ?_) fun h => hlinear h.1
    cases hmode : d.lmode with
    | off => exact hlinear (.inr hmode)
    | forward => simp [Pos.neighbour_loop hopen (.inl hmode), nextLoop] at hended
    | release => simp [Pos.neighbour_loop hopen (.inr hmode), nextLoop] at hended
    | pingpong =>
      rw [Pos.neighbour_pingpong hopen hmode] at hended
      cases hdir : p.dir <;> rw [hdir, nextPingpong] at hended <;> split at hended <;> cases hended

/-- The sample a position interpolates towards: its neighbour, or 0 past the end of the stream (R275). -/
def State.nextSample (s : State) (d : Desc) (p : Pos) : Int :=
  if (p.neighbour d).ended then 0 else (s.waveRead (d.base.toNat + (p.neighbour d).idx)).toInt

/-- A position that has ended reads 0 (R279). -/
theorem interp_of_ended {p : Pos} (h : p.ended = true) (s : State) (d : Desc) (ctr : Nat) :
    interp s [] d p ctr = (0, ctr) := if_pos h

/-- A position that has not ended reads between its sample and the next (R275). -/
theorem interp_of_not_ended {p : Pos} (h : p.ended = false) (s : State) (d : Desc) (ctr : Nat) :
    interp s [] d p ctr = ((s.waveRead (d.base.toNat + p.srci.toNat)).toInt +
      (s.nextSample d p - (s.waveRead (d.base.toNat + p.srci.toNat)).toInt) * p.frac.toNat / 32768, ctr) := by
  have hread : ∀ a, s.voiceRead [] ctr a = (s.waveRead a, ctr) := fun a =>
    s.voiceRead_of_not_stale ctr fun _ => List.not_mem_nil
  have hlerp : ∀ a b : Int, lerp a b p.frac.toNat = a + (b - a) * p.frac.toNat / 32768 := fun a b =>
    congrArg (a + ·) (asr_eq _ 15)
  unfold interp State.nextSample
  rw [if_neg (by simp [h])]
  split <;> simp only [hread, hlerp]

/-- At fraction 0 a position reads its own sample (R275). -/
theorem interp_of_frac_zero {p : Pos} (h : p.ended = false) (hfrac : p.frac = 0) (s : State) (d : Desc) :
    (interp s [] d p 0).1 = (s.waveRead (d.base.toNat + p.srci.toNat)).toInt := by
  simp [interp_of_not_ended h, hfrac]

/-! ## Where the next sample lies -/

/-- The index of the next sample; past the end of the stream, where there is none, the count goes on. -/
def Pos.nextIndex (p : Pos) (d : Desc) : Nat :=
  if (p.neighbour d).ended then p.srci.toNat + 1 else (p.neighbour d).idx

theorem State.nextSample_past_end {p : Pos} {d : Desc} (s : State) (hlinear : p.loopen = false ∨ d.lmode = .off)
    (hlast : d.len.toNat ≤ p.srci.toNat + 1) : s.nextSample d p = 0 :=
  if_pos ((p.neighbour_ended_iff d).mpr ⟨hlinear, hlast⟩)

theorem State.nextSample_eq_waveRead {p : Pos} {d : Desc} (s : State)
    (h : ¬ ((p.loopen = false ∨ d.lmode = .off) ∧ d.len.toNat ≤ p.srci.toNat + 1)) :
    s.nextSample d p = (s.waveRead (d.base.toNat + p.nextIndex d)).toInt := by
  rw [← p.neighbour_ended_iff d] at h
  rw [State.nextSample, Pos.nextIndex, if_neg h, if_neg h]

theorem Pos.nextIndex_linear {p : Pos} {d : Desc} (h : p.loopen = false ∨ d.lmode = .off) :
    p.nextIndex d = p.srci.toNat + 1 := by
  rw [Pos.nextIndex, Pos.neighbour_linear h, nextLinear]
  split <;> rfl

theorem Pos.nextIndex_loop {p : Pos} {d : Desc} (hopen : p.loopen = true) (h : d.lmode = .forward ∨ d.lmode = .release) :
    p.nextIndex d = if p.srci.toNat + 1 < d.lstart.toNat + d.llen.toNat then p.srci.toNat + 1
      else p.srci.toNat + 1 - d.llen.toNat := by
  rw [Pos.nextIndex, Pos.neighbour_loop hopen h, nextLoop, Desc.loopEnd, if_neg Bool.false_ne_true]
  by_cases hend : d.lstart.toNat + d.llen.toNat ≤ p.srci.toNat + 1
  · simp [hend, Nat.not_lt.mpr hend]
  · simp [hend, Nat.not_le.mp hend]

theorem Pos.nextIndex_pingpong_up {p : Pos} {d : Desc} (hopen : p.loopen = true) (h : d.lmode = .pingpong)
    (hdir : p.dir = .up) :
    p.nextIndex d = if p.srci.toNat + 1 < d.lstart.toNat + d.llen.toNat then p.srci.toNat + 1 else p.srci.toNat := by
  rw [Pos.nextIndex, Pos.neighbour_pingpong hopen h, hdir, nextPingpong, Desc.loopEnd]
  by_cases hend : d.lstart.toNat + d.llen.toNat ≤ p.srci.toNat + 1
  · simp [hend, Nat.not_lt.mpr hend]
  · simp [hend, Nat.not_le.mp hend]

theorem Pos.nextIndex_pingpong_down {p : Pos} {d : Desc} (hopen : p.loopen = true) (h : d.lmode = .pingpong)
    (hdir : p.dir = .down) :
    p.nextIndex d = if d.lstart.toNat < p.srci.toNat then p.srci.toNat - 1 else p.srci.toNat := by
  rw [Pos.nextIndex, Pos.neighbour_pingpong hopen h, hdir, nextPingpong]
  by_cases hstart : p.srci.toNat ≤ d.lstart.toNat
  · simp [hstart, Nat.not_lt.mpr hstart]
  · simp [hstart, Nat.not_le.mp hstart]

/-! ## Where a step takes a position -/

/-- A position that has ended stays (R279). -/
theorem advance_of_ended {p : Pos} (h : p.ended = true) (d : Desc) (step : Nat) : advance d p step = p := if_pos h

/-- A frame's step is a new fraction and a number of whole samples (R276). -/
theorem advance_of_not_ended {p : Pos} (h : p.ended = false) (d : Desc) (step : Nat) :
    advance d p step =
      stepWhole d ((p.frac.toNat + step) / 32768) { p with frac := BitVec.ofNat 15 (p.frac.toNat + step) } := by
  rw [advance, if_neg (by simp [h]), Nat.shiftRight_eq_div_pow]

theorem advance_frac {p : Pos} (h : p.ended = false) (d : Desc) (step : Nat) :
    (advance d p step).frac.toNat = (p.frac.toNat + step) % 32768 ∧ (advance d p step).loopen = p.loopen := by
  rw [advance_of_not_ended h]
  obtain ⟨hfrac, hopen⟩ := stepWhole_frac d ((p.frac.toNat + step) / 32768)
    { p with frac := BitVec.ofNat 15 (p.frac.toNat + step) }
  exact ⟨by rw [hfrac, BitVec.toNat_ofNat], hopen⟩

theorem advance_linear {p : Pos} {d : Desc} (hview : PosInView d p) (he : p.ended = false)
    (h : p.loopen = false ∨ d.lmode = .off) (step : Nat) :
    (advance d p step).dir = p.dir ∧
    (advance d p step).srci.toNat = min (p.srci.toNat + (p.frac.toNat + step) / 32768) (d.len.toNat - 1) ∧
    ((advance d p step).ended = true ↔ d.len.toNat ≤ p.srci.toNat + (p.frac.toNat + step) / 32768) := by
  obtain ⟨hlen, -⟩ := hview
  rw [advance_of_not_ended he]
  exact stepWhole_linear (Nat.one_le_of_lt hlen) _ h he hlen

theorem advance_loop {n : Nat} {p : Pos} {d : Desc} (hd : DescPlayable n d) (hview : PosInView d p) (he : p.ended = false)
    (hopen : p.loopen = true) (h : d.lmode = .forward ∨ d.lmode = .release) (step : Nat) :
    (advance d p step).dir = p.dir ∧ (advance d p step).ended = false ∧
    (advance d p step).srci.toNat =
      if p.srci.toNat + (p.frac.toNat + step) / 32768 < d.lstart.toNat + d.llen.toNat then
        p.srci.toNat + (p.frac.toNat + step) / 32768
      else d.lstart.toNat + (p.srci.toNat + (p.frac.toNat + step) / 32768 - d.lstart.toNat) % d.llen.toNat := by
  obtain ⟨-, -, -, hloop⟩ := hd
  obtain ⟨-, hin, -⟩ := hview
  obtain ⟨hmode, hlt⟩ := hin hopen
  obtain ⟨hllen, hfit⟩ := hloop hmode
  rw [advance_of_not_ended he]
  exact stepWhole_loop hllen hfit _ hopen h he hlt

/-- The phase of a ping-pong position: going down, the loop counted on from its end (R274). -/
def Pos.phase (p : Pos) (d : Desc) : Nat :=
  if p.dir = .up then p.srci.toNat else d.lstart.toNat + 2 * d.llen.toNat - 1 - (p.srci.toNat - d.lstart.toNat)

theorem phaseAt_phase {p : Pos} {d : Desc} (hllen : 1 ≤ d.llen.toNat)
    (hlt : p.srci.toNat < d.lstart.toNat + d.llen.toNat) (hdown : p.dir = .down → d.lstart.toNat ≤ p.srci.toNat) :
    PhaseAt d (p.phase d) p.srci.toNat p.dir := by
  have hmod : p.phase d - d.lstart.toNat < 2 * d.llen.toNat := by
    unfold Pos.phase
    split <;> omega
  unfold PhaseAt
  rw [Nat.mod_eq_of_lt hmod]
  cases hdir : p.dir with
  | up =>
    have hphase : p.phase d = p.srci.toNat := if_pos hdir
    rw [hphase]
    exact ⟨fun _ => ⟨rfl, rfl⟩, fun _ _ => ⟨by omega, rfl⟩, fun _ _ => by omega⟩
  | down =>
    have hstart := hdown hdir
    have hphase : p.phase d = d.lstart.toNat + 2 * d.llen.toNat - 1 - (p.srci.toNat - d.lstart.toNat) :=
      if_neg (by simp [hdir])
    rw [hphase]
    exact ⟨fun _ => by omega, fun _ _ => by omega, fun _ _ => ⟨by omega, rfl⟩⟩

theorem advance_pingpong {n : Nat} {p : Pos} {d : Desc} (hd : DescPlayable n d) (hview : PosInView d p)
    (he : p.ended = false) (hopen : p.loopen = true) (hmode : d.lmode = .pingpong)
    (hdown : p.dir = .down → d.lstart.toNat ≤ p.srci.toNat) (step : Nat) :
    (advance d p step).ended = false ∧
    PhaseAt d (p.phase d + (p.frac.toNat + step) / 32768) (advance d p step).srci.toNat (advance d p step).dir := by
  obtain ⟨-, -, -, hloop⟩ := hd
  obtain ⟨-, hin, -⟩ := hview
  obtain ⟨hon, hlt⟩ := hin hopen
  obtain ⟨hllen, hfit⟩ := hloop hon
  rw [advance_of_not_ended he]
  exact stepWhole_pingpong hllen hfit hmode _ hopen he (phaseAt_phase hllen hlt hdown)

/-- Settles O53: each of the three ways of moving by its own lemma on the next index and on the step. -/
theorem resamplerReadsAndMoves : Obligations.ResamplerReadsAndMoves := by
  intro s d p ctr step hd _ hview
  refine ⟨_, _, _, _, _, _, _, rfl, rfl, rfl, rfl, Iff.rfl, Iff.rfl, Iff.rfl,
    fun he => ⟨interp_of_ended he s d ctr, advance_of_ended he d step⟩, fun he => ?_⟩
  obtain ⟨hfrac, hkeeps⟩ := advance_frac he d step
  exact ⟨p.nextIndex d, _, s.nextSample d p, rfl, s.nextSample_past_end, s.nextSample_eq_waveRead, Pos.nextIndex_linear,
    fun ⟨hopen, hmode⟩ => Pos.nextIndex_loop hopen hmode,
    fun ⟨hopen, hmode⟩ => Pos.nextIndex_pingpong_up hopen hmode,
    fun ⟨hopen, hmode⟩ => Pos.nextIndex_pingpong_down hopen hmode,
    interp_of_not_ended he s d ctr, hfrac, hkeeps,
    fun hlinear => advance_linear hview he hlinear step,
    fun ⟨hopen, hmode⟩ => advance_loop hd hview he hopen hmode step,
    fun ⟨hopen, hmode⟩ hdown =>
      have ⟨hgoes, hphase⟩ := advance_pingpong hd hview he hopen hmode hdown step
      ⟨hgoes, _, _, rfl, rfl, hphase⟩⟩

/-! ## Unit pitch -/

/-- No cents are the ratio 1 (R12). -/
theorem exp2C_zero : exp2C 0 = 32768 := by
  have hfloor := centsToRatioIsTheFloor 0 (by decide) (by decide)
  simp only [Int.cast_zero, zero_div, Real.rpow_zero, mul_one, Int.floor_ofNat] at hfloor
  exact_mod_cast hfloor

/-- A sample recorded at the machine's rate and played at its pitch goes one sample a frame (R277). -/
theorem stepOf_unit {cfg : Config} {d : Desc} (hfs : 1 ≤ cfg.fs) (hrate : d.rate.toNat = cfg.fs) :
    stepOf cfg d 0 = 32768 := by
  have hunit : srrq cfg d = 32768 := by rw [srrq, hrate, Nat.mul_div_cancel_left _ hfs]
  rw [stepOf, exp2C_zero, hunit]
  rfl

/-- Before the end of the stream a whole sample is one move to the neighbour (R276). -/
theorem stepWhole_of_goes {d : Desc} {p : Pos} (h : (p.neighbour d).ended ≠ true) (k : Nat) :
    stepWhole d (k + 1) p =
      stepWhole d k { p with srci := BitVec.ofNat 32 (p.neighbour d).idx, dir := (p.neighbour d).dir } := if_neg h

/-- In a loop, frames at unit pitch are whole samples one by one (R276, R281). -/
theorem iterate_advance_unit {d : Desc} (hmode : d.lmode ≠ .off) (m : Nat) {p : Pos} (hopen : p.loopen = true)
    (he : p.ended = false) (hfrac : p.frac = 0) : (fun x => advance d x 32768)^[m] p = stepWhole d m p := by
  induction m generalizing p with
  | zero => rfl
  | succ m ih =>
    have hgoes : (p.neighbour d).ended ≠ true := by simp [Pos.neighbour_ended_iff, hopen, hmode]
    have hunit : advance d p 32768 = stepWhole d 1 p := by
      have hwraps : BitVec.ofNat 15 (p.frac.toNat + 32768) = p.frac := by rw [hfrac]; rfl
      have hone : (p.frac.toNat + 32768) / 32768 = 1 := by rw [hfrac]; rfl
      rw [advance_of_not_ended he, hwraps, hone]
    rw [Function.iterate_succ_apply, hunit, stepWhole_of_goes hgoes 0, stepWhole_of_goes hgoes m]
    exact ih hopen he hfrac

/-- Where a looping voice starts to read (R185): the first sample, going up, the loop in force. -/
def loopStart : Pos := { srci := 0, frac := 0, dir := .up, loopen := true, ended := false }

/-- From the start m whole samples lead once to the loop and then round it (R281). -/
theorem stepWhole_loopStart_loop {n : Nat} {d : Desc} (hd : DescPlayable n d)
    (hmode : d.lmode = .forward ∨ d.lmode = .release) (m : Nat) :
    (stepWhole d m loopStart).ended = false ∧ (stepWhole d m loopStart).srci.toNat =
      if m < d.lstart.toNat then m else d.lstart.toNat + (m - d.lstart.toNat) % d.llen.toNat := by
  obtain ⟨-, -, -, hloop⟩ := hd
  obtain ⟨hllen, hfit⟩ := hloop (by rcases hmode with h | h <;> simp [h])
  have hstart : loopStart.srci.toNat = 0 := rfl
  obtain ⟨-, hended, hsrci⟩ := stepWhole_loop hllen hfit m (p := loopStart) rfl hmode rfl (by omega)
  refine ⟨hended, hsrci.trans ?_⟩
  rw [hstart, Nat.zero_add]
  by_cases hfirst : d.lstart.toNat ≤ m ∧ m < d.lstart.toNat + d.llen.toNat
  · rw [if_pos hfirst.2, if_neg (by omega), Nat.mod_eq_of_lt (by omega)]
    omega
  · split_ifs <;> omega

/-- From the start m whole samples are the phase m of a ping-pong loop (R281). -/
theorem stepWhole_loopStart_pingpong {n : Nat} {d : Desc} (hd : DescPlayable n d) (hmode : d.lmode = .pingpong) (m : Nat) :
    (stepWhole d m loopStart).ended = false ∧
    PhaseAt d m (stepWhole d m loopStart).srci.toNat (stepWhole d m loopStart).dir := by
  obtain ⟨-, -, -, hloop⟩ := hd
  obtain ⟨hllen, hfit⟩ := hloop (by simp [hmode])
  have hstart : loopStart.srci.toNat = 0 := rfl
  have hphase : PhaseAt d 0 loopStart.srci.toNat loopStart.dir := phaseAt_phase (p := loopStart) hllen (by omega) nofun
  have hmoved := stepWhole_pingpong hllen hfit hmode m (p := loopStart) rfl rfl hphase
  rwa [Nat.zero_add] at hmoved

/-- From the start no loop ends (R274, R281). -/
theorem stepWhole_loopStart_ended {n : Nat} {d : Desc} (hd : DescPlayable n d) (hmode : d.lmode ≠ .off) (m : Nat) :
    (stepWhole d m loopStart).ended = false := by
  cases h : d.lmode with
  | off => exact absurd h hmode
  | forward => exact (stepWhole_loopStart_loop hd (.inl h) m).1
  | release => exact (stepWhole_loopStart_loop hd (.inr h) m).1
  | pingpong => exact (stepWhole_loopStart_pingpong hd h m).1

/-- Settles O54: at unit pitch m frames are m whole samples from the start, and a loop's law says where those lead. -/
theorem loopsRoundTrip : Obligations.LoopsRoundTrip := by
  intro s d p m hd _ hfs hrate hp
  refine ⟨stepOf_unit hfs hrate, fun q hq => ?_⟩
  have hwhole : d.lmode ≠ .off → q = stepWhole d m loopStart := fun hmode => by
    rw [hq, hp]
    exact iterate_advance_unit (p := loopStart) hmode m rfl rfl rfl
  refine ⟨fun hmode => ?_, fun hmode => ?_, fun hmode => ?_⟩
  · have hon : d.lmode ≠ .off := by rcases hmode with h | h | h <;> simp [h]
    rw [hwhole hon]
    obtain ⟨hfrac, -⟩ := stepWhole_frac d m loopStart
    have hended := stepWhole_loopStart_ended hd hon m
    exact ⟨hfrac, hended, interp_of_frac_zero hended hfrac s d⟩
  · rw [hwhole (by rcases hmode with h | h <;> simp [h])]
    exact (stepWhole_loopStart_loop hd hmode m).2
  · rw [hwhole (by simp [hmode])]
    obtain ⟨-, hbefore, hup, hdown⟩ := stepWhole_loopStart_pingpong hd hmode m
    split_ifs with hlt hfirst
    · exact (hbefore hlt).1
    · exact (hup (by omega) hfirst).1
    · exact (hdown (by omega) (by omega)).1

end Sys2Proof.Machine
end

section
/-! A due tick on the machine's registers: the books it keeps (R302, R337, R356), the silence it detects (R335, R358), and the
bytes it puts out (R328, R333, R334). -/

namespace Sys2Proof.Machine
open Safety

-- One theorem at a time: each further thread would reserve a gigabyte of the check's memory.
set_option Elab.async false

/-! ## The step of a due tick -/

/-- The tick that is due takes its `Refill` off the schedule (R81). -/
theorem step_tick_of_tickDue {s : State} (hdue : TickDue s) : step s = .next (tick { s with sched := s.sched.tail }) := by
  obtain ⟨hhead, hrun, hempty, hidle⟩ := hdue
  obtain ⟨rest, hs⟩ := List.head?_eq_some_iff.mp hhead
  rw [step_tick hs hrun hempty hidle, hs, List.tail_cons]

theorem countUp_toNat (c : BitVec 16) : (countUp c).toNat = min (c.toNat + 1) 65535 := by
  rw [countUp, BitVec.toNat_ofNat]
  omega

/-! ## The error bits -/

/-- Promotion, control logic, the end of a voice and silence have bits 3, 4, 8 and 9; of the others a tick sets the watchdog's
only (R350). -/
theorem tick_err_of_unraised (s : State) {n : Nat} (hn : n ≠ 3 ∧ n ≠ 4 ∧ n ≠ 8 ∧ n ≠ 9) :
    (tick s).err.getLsbD n = (s.err.getLsbD n || (s.watchdogFires && decide (n = 5))) := by
  obtain ⟨hwtbad, hcbbad, hvdone, hidle⟩ := hn
  obtain ⟨vdone, idle, herr⟩ := tick_err s
  have hpromote : ∀ v, (promoteErr s v).getLsbD n = false := fun v => Bool.eq_false_of_not_eq_true fun h => by
    obtain ⟨-, ⟨h, -⟩ | h⟩ := promoteErr_raised h
    · exact hwtbad h
    · exact hcbbad h
  have hcontrol : ∀ v, (controlErr s v).getLsbD n = false := fun v =>
    Bool.eq_false_of_not_eq_true fun h => hcbbad (controlErr_raised h)
  rw [herr]
  simp [hpromote, hcontrol, hvdone, hidle]

/-- Until the output the bit `IDLE` is as it was (R358). -/
theorem tickToBuses_err_idle (s : State) : (tickToBuses s).err.getLsbD 9 = s.err.getLsbD 9 := by
  obtain ⟨u, -, hevents, -, herr⟩ := tickToBuses_audio s
  obtain ⟨c, haudio⟩ := audioVoices_err u u.voices u.buses u.err u.freeCtr
  rw [herr, haudio, getLsbD_or_maskIf, hevents 9 (by decide), decide_eq_false (by decide), Bool.and_false, Bool.or_false]

/-! ## The bytes -/

theorem State.outL_length (s : State) : s.outL.length = s.cfg.chunk := by simp [State.outL, outSide]

theorem State.outR_length (s : State) : s.outR.length = s.cfg.chunk := by simp [State.outR, outSide]

theorem tick_outbuf (s : State) : (tick s).outbuf = packFrames (tickToBuses s).outL (tickToBuses s).outR := by
  obtain ⟨c, heq, -⟩ := tickOutput_eq (tickToBuses s)
  rw [tick, heq]

theorem tick_outbuf_length (s : State) : (tick s).outbuf.length = 4 * s.cfg.chunk := by
  rw [tick_outbuf, packFrames_length _ _ ((State.outL_length _).trans (State.outR_length _).symm), State.outL_length,
    tickToBuses_cfg]

/-- Settles O30: the tick's fields one by one, and the bits of `ERR` below the events. -/
theorem tickKeepsItsBooks : Obligations.TickKeepsItsBooks := by
  intro s hdue
  refine ⟨_, step_tick_of_tickDue hdue, rfl, ?_⟩
  have hfires := watchdogFires_iff { s with sched := s.sched.tail }
  have herr : ∀ n, n ≠ 3 ∧ n ≠ 4 ∧ n ≠ 8 ∧ n ≠ 9 → (tick { s with sched := s.sched.tail }).err.getLsbD n =
      (s.err.getLsbD n || (State.watchdogFires { s with sched := s.sched.tail } && decide (n = 5))) :=
    fun n hn => tick_err_of_unraised { s with sched := s.sched.tail } hn
  refine ⟨tick_tickcnt _, tick_cmdseen _, tick_outrd _, tick_outbuf_length _, ?_, fun hdog => ?_, fun hdog => ?_,
    tick_voices_length _, tick_cfg _, tick_run _, tick_mvol _, tick_mbal _, tick_mfine _, tick_mcoarse _, tick_chans _,
    tick_wave _, tick_wt _, tick_cb _, tick_wptr _, tick_lr _, tick_rsp _, tick_ien _, tick_sched _, tick_sinkGot _,
    ?_, ?_, ?_⟩
  · rw [tick_ascnt, countUp_toNat]
  · have hf := hfires.mpr hdog
    rw [tick_asen, herr 5 (by decide), hf]
    simp
  · have hf : State.watchdogFires { s with sched := s.sched.tail } = false :=
      Bool.eq_false_of_not_eq_true fun h => hdog (hfires.mp h)
    rw [tick_asen, herr 5 (by decide), hf]
    simp
  all_goals rw [herr _ (by decide)]; simp

/-! ## Silence -/

/-- Two bytes of 0 are a sample of 0 (R80). -/
theorem eq_zero_of_bytes {x : BitVec 16} (hlow : x.extractLsb' 0 8 = 0) (hhigh : x.extractLsb' 8 8 = 0) : x = 0 := by
  have hlow := congrArg BitVec.toNat hlow
  have hhigh := congrArg BitVec.toNat hhigh
  simp only [BitVec.extractLsb'_toNat, Nat.shiftRight_eq_div_pow, BitVec.ofNat_eq_ofNat, BitVec.toNat_ofNat] at hlow hhigh
  have hlt := x.isLt
  exact BitVec.eq_of_toNat_eq (by simp only [BitVec.ofNat_eq_ofNat, BitVec.toNat_ofNat]; omega)

/-- A chunk is silent if all its bytes are 0 (R334, R335). -/
theorem allSilent_iff {ls rs : List (BitVec 16)} (h : ls.length = rs.length) :
    allSilent ls rs = true ↔ ∀ b ∈ packFrames ls rs, b = 0 := by
  refine ⟨packFrames_of_allSilent, fun hzero => ?_⟩
  induction ls generalizing rs with
  | nil =>
    cases rs with
    | nil => rfl
    | cons r rs => cases h
  | cons l ls ih =>
    cases rs with
    | nil => cases h
    | cons r rs =>
      simp only [packFrames, List.zipWith_cons_cons, List.flatten_cons, List.forall_mem_append, frameBytes,
        List.forall_mem_cons] at hzero
      obtain ⟨⟨hl, hl', hr, hr', -⟩, hrest⟩ := hzero
      have hsilent := ih (Nat.succ.inj h) hrest
      simp only [allSilent, Bool.and_eq_true] at hsilent
      obtain ⟨hls, hrs⟩ := hsilent
      simp only [allSilent, List.all_cons, eq_zero_of_bytes hl hl', eq_zero_of_bytes hr hr', hls, hrs, decide_true,
        Bool.and_self]

theorem silUp_toNat (c : BitVec 3) : (silUp c).toNat = min (c.toNat + 1) 5 := by revert c; decide

/-- What a tick of a machine that is not idle does to `SILCNT` and `IDLE`, by whether the chunk it puts out is all zero
(R335). -/
theorem tick_silence {s : State} (hidle : s.idle = false) : ∃ c : Bool, (tick s).idle = c ∧
    (tick s).silcnt = (if (∀ b ∈ (tick s).outbuf, b = 0) ∧ s.cmdseen = false then silUp s.silcnt else 0) ∧
    (tick s).err.getLsbD 9 = (s.err.getLsbD 9 || c) ∧
    (c = true ↔ ((∀ b ∈ (tick s).outbuf, b = 0) ∧ s.cmdseen = false) ∧ silUp s.silcnt = 5) := by
  obtain ⟨c, heq, hc⟩ := tickOutput_eq (tickToBuses s)
  have hsilent := allSilent_iff ((tickToBuses s).outL_length.trans (tickToBuses s).outR_length.symm)
  rw [hsilent, ← tick_outbuf, tickToBuses_cmdseen, tickToBuses_silcnt, ← and_assoc] at hc
  refine ⟨c, ?_, ?_, ?_, hc⟩
  · rw [tick, heq]
    simp [hidle]
  · rw [tick_outbuf, tick, heq]
    simp only [Bool.and_eq_true, Bool.not_eq_true', hsilent, tickToBuses_cmdseen, tickToBuses_silcnt]
  · rw [tick, heq, getLsbD_or_maskIf, tickToBuses_err_idle]
    simp [ErrBit.num]

/-- The two branches of silence detection (R335, R358). -/
theorem tick_silence_cases {s : State} (hidle : s.idle = false) :
    ((∀ b ∈ (tick s).outbuf, b = 0) ∧ s.cmdseen = false →
      (tick s).silcnt.toNat = min (s.silcnt.toNat + 1) 5 ∧ ((tick s).idle = true ↔ (tick s).silcnt = 5) ∧
      ((tick s).idle = true → (tick s).err.getLsbD 9 = true) ∧
      ((tick s).idle = false → (tick s).err.getLsbD 9 = s.err.getLsbD 9)) ∧
    (¬ ((∀ b ∈ (tick s).outbuf, b = 0) ∧ s.cmdseen = false) →
      (tick s).silcnt = 0 ∧ (tick s).idle = false ∧ (tick s).err.getLsbD 9 = s.err.getLsbD 9) := by
  obtain ⟨c, hgoes, hcount, herr, hc⟩ := tick_silence hidle
  rw [hgoes, herr]
  refine ⟨fun hsilent => ?_, fun hloud => ?_⟩
  · rw [if_pos hsilent] at hcount
    rw [hcount]
    exact ⟨silUp_toNat _, hc.trans (and_iff_right hsilent), fun h => by simp [h], fun h => by simp [h]⟩
  · rw [if_neg hloud] at hcount
    have hfalse : c = false := Bool.eq_false_of_not_eq_true fun h => hloud (hc.mp h).1
    exact ⟨hcount, hfalse, by simp [hfalse]⟩

/-- Settles O32: a due tick is of a machine that is not idle, so what idles after it went idle in it. -/
theorem silenceDetection : Obligations.SilenceDetection := by
  intro s t hdue hstep
  obtain ⟨rest, rfl⟩ := step_of_tickDue hdue hstep
  obtain ⟨-, -, -, hidle⟩ := hdue
  exact tick_silence_cases (s := { s with sched := rest }) hidle

/-! ## The output -/

theorem State.masterL_eq (s : State) : s.masterL =
    s.mvol.toNat * s.mvol.toNat / 32768 * min 32768 (2 * (32768 - s.mbal.toNat)) / 32768 := by
  simp only [State.masterL, squaredGain, panL, one, Nat.shiftRight_eq_div_pow, Nat.reducePow]

theorem State.masterR_eq (s : State) : s.masterR =
    s.mvol.toNat * s.mvol.toNat / 32768 * min 32768 (2 * s.mbal.toNat) / 32768 := by
  simp only [State.masterR, squaredGain, panR, one, Nat.shiftRight_eq_div_pow, Nat.reducePow]

/-- The previous gains of the next tick are this tick's (R333). -/
theorem tick_gprev {s : State} (hvol : s.mvol.toNat ≤ 32768) :
    (tick s).gprevl.toNat = s.masterL ∧ (tick s).gprevr.toNat = s.masterR := by
  obtain ⟨c, heq, -⟩ := tickOutput_eq (tickToBuses s)
  have hl : (tickToBuses s).masterL = s.masterL := by simp only [State.masterL, tickToBuses_mvol, tickToBuses_mbal]
  have hr : (tickToBuses s).masterR = s.masterR := by simp only [State.masterR, tickToBuses_mvol, tickToBuses_mbal]
  have hl16 := State.masterL_le hvol
  have hr16 := State.masterR_le hvol
  rw [tick, heq]
  simp only [BitVec.toNat_ofNat, hl, hr]
  omega

/-- The bytes of frame `j` of a chunk (R334). -/
theorem packFrames_getElem? {ls rs : List (BitVec 16)} {j i : Nat} {l r : BitVec 16} (hl : ls[j]? = some l)
    (hr : rs[j]? = some r) (hi : i < 4) : (packFrames ls rs)[4 * j + i]? = (frameBytes l r)[i]? := by
  induction j generalizing ls rs with
  | zero =>
    cases ls with
    | nil => cases hl
    | cons x ls =>
      cases rs with
      | nil => cases hr
      | cons y rs =>
        obtain rfl : x = l := by simpa using hl
        obtain rfl : y = r := by simpa using hr
        rw [packFrames, List.zipWith_cons_cons, List.flatten_cons, Nat.mul_zero, Nat.zero_add,
          List.getElem?_append_left hi]
  | succ j ih =>
    cases ls with
    | nil => cases hl
    | cons x ls =>
      cases rs with
      | nil => cases hr
      | cons y rs =>
        have hframe : (frameBytes x y).length = 4 := rfl
        rw [packFrames, List.zipWith_cons_cons, List.flatten_cons, List.getElem?_append_right (by omega), hframe,
          show 4 * (j + 1) + i - 4 = 4 * j + i by omega]
        exact ih hl hr

theorem sat16_eq_max_min (x : Int) : sat16 x = max (-32768) (min 32767 x) := by
  rw [sat16, clamp_eq_max_min (by decide)]

/-- One output sample in plain arithmetic (R333). -/
theorem outSample_eq (x : BitVec 32) (old new j n : Nat) : outSample x old new j n =
    BitVec.ofInt 16 (max (-32768) (min 32767 (x.toInt * (ramp old new j n : Nat) / 32768))) := by
  rw [outSample, sat16_eq_max_min, asr_eq]
  rfl

theorem outSide_getElem? (bus : List (BitVec 32)) (old new : Nat) {j n : Nat} (hj : j < n) :
    (outSide bus old new n)[j]? = some (outSample (bus.getD j 0) old new j n) := by
  simp [outSide, hj]

/-- The low and the high byte of a sample (R80). -/
theorem ofInt16_bytes (x : Int) : (BitVec.ofInt 16 x).extractLsb' 0 8 = BitVec.ofInt 8 x ∧
    (BitVec.ofInt 16 x).extractLsb' 8 8 = BitVec.ofInt 8 (x / 256) := by
  constructor <;> refine BitVec.eq_of_toNat_eq ?_ <;>
    simp only [BitVec.extractLsb'_toNat, Nat.shiftRight_eq_div_pow, BitVec.toNat_ofInt] <;> omega

/-- The four bytes that a tick puts out for frame `j` (R333, R334). -/
theorem tick_outbuf_frame (s : State) {j : Nat} (hj : j < s.cfg.chunk) {l r : Int}
    (hl : l = max (-32768) (min 32767
      (((tick s).buses.l.getD j 0).toInt * (ramp s.gprevl.toNat s.masterL j s.cfg.chunk : Nat) / 32768)))
    (hr : r = max (-32768) (min 32767
      (((tick s).buses.r.getD j 0).toInt * (ramp s.gprevr.toNat s.masterR j s.cfg.chunk : Nat) / 32768))) :
    (tick s).outbuf[4 * j]? = some (BitVec.ofInt 8 l) ∧ (tick s).outbuf[4 * j + 1]? = some (BitVec.ofInt 8 (l / 256)) ∧
    (tick s).outbuf[4 * j + 2]? = some (BitVec.ofInt 8 r) ∧
    (tick s).outbuf[4 * j + 3]? = some (BitVec.ofInt 8 (r / 256)) := by
  have hsample : (tickToBuses s).outL[j]? = some (BitVec.ofInt 16 l) ∧
      (tickToBuses s).outR[j]? = some (BitVec.ofInt 16 r) := by
    rw [hl, hr, ← outSample_eq, ← outSample_eq, tick_buses]
    simp only [State.outL, State.outR, State.masterL, State.masterR, tickToBuses_mvol, tickToBuses_mbal,
      tickToBuses_gprevl, tickToBuses_gprevr, tickToBuses_cfg]
    exact ⟨outSide_getElem? _ _ _ hj, outSide_getElem? _ _ _ hj⟩
  obtain ⟨hl16, hr16⟩ := hsample
  obtain ⟨hllow, hlhigh⟩ := ofInt16_bytes l
  obtain ⟨hrlow, hrhigh⟩ := ofInt16_bytes r
  have hbyte : ∀ i < 4, (tick s).outbuf[4 * j + i]? = (frameBytes (BitVec.ofInt 16 l) (BitVec.ofInt 16 r))[i]? :=
    fun i hi => by rw [tick_outbuf, packFrames_getElem? hl16 hr16 hi]
  simp only [frameBytes, hllow, hlhigh, hrlow, hrhigh] at hbyte
  exact ⟨hbyte 0 (by decide), hbyte 1 (by decide), hbyte 2 (by decide), hbyte 3 (by decide)⟩

theorem tick_buses_length (s : State) : (tick s).buses.l.length = s.cfg.chunk ∧ (tick s).buses.r.length = s.cfg.chunk := by
  have hfx : ∀ u : State, (fxAudio u).buses.l.length = u.cfg.chunk ∧ (fxAudio u).buses.r.length = u.cfg.chunk :=
    fun u => ⟨fitBus_length .., fitBus_length ..⟩
  rw [tick_buses, tickToBuses, ← tickToBuses_cfg s, tickToBuses, fxAudio_cfg]
  exact hfx _

/-- Settles O33: frame by frame, with the ramp's new gains the ones the tick leaves in `GPREVL` and `GPREVR`. -/
theorem outputIsTheBusesThroughTheMasterGains : Obligations.OutputIsTheBusesThroughTheMasterGains := by
  rintro s t hdue ⟨hvol, -⟩ hstep
  obtain ⟨rest, rfl⟩ := step_of_tickDue hdue hstep
  obtain ⟨hl, hr⟩ := tick_gprev (s := { s with sched := rest }) hvol
  obtain ⟨hlenl, hlenr⟩ := tick_buses_length { s with sched := rest }
  rw [hl, hr]
  exact ⟨State.masterL_eq _, State.masterR_eq _, hlenl, hlenr, fun j hj =>
    ⟨_, _, _, _, rfl, rfl, rfl, rfl, tick_outbuf_frame { s with sched := rest } hj rfl rfl⟩⟩

end Sys2Proof.Machine
end

section
/-! The control logic of a voice, rule by rule: the glide, the generators, the shutdown ramp and the last tick, the audio
parameters of the tick, and the fields it leaves alone (R310 to R319). -/

namespace Sys2Proof.Machine
open Safety

-- One theorem at a time: each further thread would reserve a gigabyte of the check's memory.
set_option Elab.async false

/-! ## The rules' functions in plain arithmetic -/

/-- The glide offset does not leave its register: it moves toward 0 (R310). -/
theorem glideStep_toInt (g r : BitVec 32) : (glideStep g r).toInt =
    if 0 < g.toInt then max 0 (g.toInt - r.toNat) else if g.toInt < 0 then min 0 (g.toInt + r.toNat) else 0 := by
  have hlo := g.le_toInt
  have hhi := g.toInt_lt
  unfold glideStep
  split_ifs with hpos hneg
  · exact BitVec.toInt_ofInt_eq_self (by decide) (by omega) (by omega)
  · exact BitVec.toInt_ofInt_eq_self (by decide) (by omega) (by omega)
  · omega

/-- `StepOf` (R277). -/
theorem stepOf_eq (cfg : Config) (d : Desc) (c : Int) :
    stepOf cfg d c = min (exp2C c * (d.rate.toNat * 32768 / cfg.fs) / 32768) 2147483647 := by
  rw [stepOf, srrq, Nat.shiftRight_eq_div_pow]

/-- A pan or balance position (R318). -/
theorem panPos_cast (x : Int) : (panPos x : Int) = max 0 (min 32768 (16384 + x / 4)) := by
  rw [panPos, clamp_eq_max_min (by decide), asr_eq, Int.toNat_of_nonneg (le_max_left _ _)]
  norm_num

/-- `GL` of two positions (R318). -/
theorem gainL_cast {p b : Nat} (hp : p ≤ 32768) (hb : b ≤ 32768) : (gainL p b : Int) =
    min 32768 (2 * (32768 - (p : Int))) * min 32768 (2 * (32768 - (b : Int))) / 32768 := by
  simp only [gainL, panL, one, Nat.shiftRight_eq_div_pow]
  push_cast [hp, hb]
  norm_num

/-- `GR` of two positions (R318). -/
theorem gainR_cast (p b : Nat) :
    (gainR p b : Int) = min 32768 (2 * (p : Int)) * min 32768 (2 * (b : Int)) / 32768 := by
  simp only [gainR, panR, one, Nat.shiftRight_eq_div_pow]
  push_cast
  norm_num

theorem ofNat16_eq_one_iff {n : Nat} (h : n ≤ 32768) : BitVec.ofNat 16 n = 32768 ↔ n = one := by
  rw [← BitVec.toNat_inj, toNat_ofNat16_of_le h]
  rfl

/-! ## The stages of the control logic -/

/-- No block reads the glide offset (R212). -/
theorem resolved_glide (s : State) (v : Voice) (k : Nat) : resolved s v.glide k = resolved s v k := by
  have hsource : ∀ src, sourceValue s v.glide src = sourceValue s v src := fun src => by cases src <;> rfl
  have htransform : ∀ sel xf, transform s v.glide sel xf = transform s v sel xf := fun sel xf => by
    simp only [transform, hsource]
  simp only [resolved, contributionOf, htransform]
  rfl

/-- The destinations that the control logic evaluates are the exact sums (R311). -/
theorem controlLogic_dst_toInt {s : State} {v : Voice} (hs : RegistersInRange s) (hv : VoiceInRange v) (k : Fin 24) :
    (controlLogic s v).dst[k].toInt = if k.val < 2 then v.dst[k].toInt else resolved s v k.val := by
  obtain ⟨-, hdst, -⟩ := destinationsAreExactSums s v.glide hs hv
  rw [controlLogic_dst, hdst k, resolved_glide]
  rfl

/-- Both oscillators step on the frequencies just evaluated (R312). -/
theorem controlLogic_lfos (s : State) (v : Voice) :
    (controlLogic s v).lfo0 = lfoAdvance s.cfg v.lfo0 ((controlLogic s v).dstVal 12) ∧
    (controlLogic s v).lfo1 = lfoAdvance s.cfg v.lfo1 ((controlLogic s v).dstVal 14) := by
  simp [controlLogic, Voice.dstVal]

/-- Both generators step on the inputs just evaluated (R313). -/
theorem controlLogic_egs_eq (s : State) (v : Voice) :
    (controlLogic s v).eg0 = egAdvance v.eg0 ((controlLogic s v).dstVal 2) ((controlLogic s v).dstVal 3)
      ((controlLogic s v).dstVal 4) ((controlLogic s v).dstVal 5) ((controlLogic s v).dstVal 6) ∧
    (controlLogic s v).eg1 = egAdvance v.eg1 ((controlLogic s v).dstVal 7) ((controlLogic s v).dstVal 8)
      ((controlLogic s v).dstVal 9) ((controlLogic s v).dstVal 10) ((controlLogic s v).dstVal 11) := by
  simp [controlLogic, Voice.dstVal]

/-- The shutdown ramp (R314). -/
theorem controlLogic_shut_toNat (s : State) (v : Voice) : (controlLogic s v).shut.toNat =
    if v.flags.silencing = true then v.shut.toNat - s.cfg.shutStep else v.shut.toNat := by
  have hlt := v.shut.isLt
  rw [controlLogic_shut]
  split
  · rw [BitVec.toNat_ofNat, Nat.mod_eq_of_lt (by omega)]
  · rfl

/-- A voice is in its last tick at the end of its first envelope or of its shutdown ramp (R315). -/
theorem controlLogic_final_iff (s : State) (v : Voice) : (controlLogic s v).flags.final = true ↔
    (controlLogic s v).eg0.stage = .done ∨ (v.flags.silencing = true ∧ (controlLogic s v).shut = 0) := by
  rw [controlLogic_flags]
  simp only [Bool.or_eq_true, Bool.and_eq_true, decide_eq_true_eq]

/-! ## The audio parameters -/

/-- The first tick changes no target (R319). -/
theorem Voice.firstTick_targets (v : Voice) :
    v.firstTick.audio = { v.audio with told := v.firstTick.audio.told, aold := v.firstTick.audio.aold } := by
  unfold Voice.firstTick
  split <;> rfl

/-- The pitch and the amplitude that the audio parameters are set from are those of the voice as the control logic leaves it
(R316, R317). -/
theorem controlLogic_step_amplitude (s : State) (v : Voice) :
    (controlLogic s v).audio.tnew = BitVec.ofNat 32 (stepOf s.cfg v.desc (controlLogic s v).pitch) ∧
    (controlLogic s v).audio.anew = BitVec.ofNat 16 (controlLogic s v).amplitude := by
  rw [controlLogic, Voice.firstTick_targets]
  simp [Voice.pitch, Voice.amplitude, Voice.dstVal]

/-- The gains are set from the destinations just evaluated (R318). -/
theorem controlLogic_gains (s : State) (v : Voice) {p b : Nat} (hp : p = panPos ((controlLogic s v).dstVal 18))
    (hb : b = panPos ((controlLogic s v).dstVal 19)) :
    (controlLogic s v).audio.gl = BitVec.ofNat 16 (gainL p b) ∧ (controlLogic s v).audio.gr = BitVec.ofNat 16 (gainR p b) ∧
    (controlLogic s v).audio.mono = (decide (gainL p b = one) && decide (gainR p b = one)) ∧
    (controlLogic s v).audio.rv = BitVec.ofNat 16 (levelOf ((controlLogic s v).dstVal 20)) ∧
    (controlLogic s v).audio.ch = BitVec.ofNat 16 (levelOf ((controlLogic s v).dstVal 21)) := by
  subst hp hb
  rw [controlLogic, Voice.firstTick_targets]
  simp [Voice.dstVal, Voice.setAudio]

/-- In the first tick there is no ramp, in the others it starts from the previous targets (R319). -/
theorem controlLogic_previous (s : State) (v : Voice) :
    (controlLogic s v).audio.told = (if v.flags.first = true then (controlLogic s v).audio.tnew else v.audio.told) ∧
    (controlLogic s v).audio.aold = (if v.flags.first = true then (controlLogic s v).audio.anew else v.audio.aold) := by
  have hfirst : (controlLogic s v).flags.first = v.flags.first := by rw [controlLogic_flags]
  simp only [controlLogic, Voice.firstTick_audio, Voice.firstTick_flags] at hfirst ⊢
  rw [hfirst]
  split <;> simp

theorem controlLogic_tnew_toNat (s : State) (v : Voice) : (controlLogic s v).audio.tnew.toNat =
    min (exp2C (max (-943718400) (min 629145600
      (v.desc.corr.toInt + (controlLogic s v).dst[16].toInt + (controlLogic s v).gofs.toInt))) *
      (v.desc.rate.toNat * 32768 / s.cfg.fs) / 32768) 2147483647 := by
  obtain ⟨hstep, -⟩ := controlLogic_step_amplitude s v
  have hlt := stepOf_lt s.cfg v.desc (controlLogic s v).pitch
  rw [hstep, BitVec.toNat_ofNat, Nat.mod_eq_of_lt (by omega), stepOf_eq, Voice.pitch, clamp_eq_max_min (by decide),
    controlLogic_desc]
  rfl

theorem controlLogic_anew_toNat {s : State} {v : Voice} (hv : VoiceInRange v) : (controlLogic s v).audio.anew.toNat =
    if (controlLogic s v).flags.final = true then 0
    else cbToAmp (min (controlLogic s v).dst[17].toInt 0) * (controlLogic s v).shut.toNat / 32768 := by
  obtain ⟨-, hamp⟩ := controlLogic_step_amplitude s v
  obtain ⟨-, -, -, -, hshut, -⟩ := voiceInRange_controlLogic hv s
  rw [hamp, toNat_ofNat16_of_le (Voice.amplitude_le hshut), Voice.amplitude, Nat.shiftRight_eq_div_pow]
  rfl

/-- The four gains in plain arithmetic, and when the voice is mono (R318). -/
theorem controlLogic_gains_toNat (s : State) (v : Voice) {p b : Int}
    (hp : p = max (0 : Int) (min 32768 (16384 + (controlLogic s v).dst[18].toInt / 4)))
    (hb : b = max (0 : Int) (min 32768 (16384 + (controlLogic s v).dst[19].toInt / 4))) :
    ((controlLogic s v).audio.gl.toNat : Int) = min 32768 (2 * (32768 - p)) * min 32768 (2 * (32768 - b)) / 32768 ∧
    ((controlLogic s v).audio.gr.toNat : Int) = min 32768 (2 * p) * min 32768 (2 * b) / 32768 ∧
    ((controlLogic s v).audio.mono = true ↔
      (controlLogic s v).audio.gl = 32768 ∧ (controlLogic s v).audio.gr = 32768) ∧
    ((controlLogic s v).audio.rv.toNat : Int) = max (0 : Int) (min 32768 ((controlLogic s v).dst[20].toInt / 2)) ∧
    ((controlLogic s v).audio.ch.toNat : Int) = max (0 : Int) (min 32768 ((controlLogic s v).dst[21].toInt / 2)) := by
  obtain ⟨hgl, hgr, hmono, hrv, hch⟩ := controlLogic_gains s v rfl rfl
  obtain rfl := hp.trans (panPos_cast _).symm
  obtain rfl := hb.trans (panPos_cast _).symm
  rw [hgl, hgr, hmono, hrv, hch, toNat_ofNat16_of_le (gainL_le ..), toNat_ofNat16_of_le (gainR_le ..),
    toNat_ofNat16_of_le (levelOf_le _), toNat_ofNat16_of_le (levelOf_le _), ofNat16_eq_one_iff (gainL_le ..),
    ofNat16_eq_one_iff (gainR_le ..), Bool.and_eq_true, decide_eq_true_iff, decide_eq_true_iff]
  exact ⟨gainL_cast (panPos_le _) (panPos_le _), gainR_cast _ _, Iff.rfl, levelOf_eq_max_min _, levelOf_eq_max_min _⟩

/-! ## The whole -/

/-- What the control logic leaves alone (R310 to R319). -/
theorem controlLogic_frame (s : State) (v : Voice) :
    { controlLogic s v with
      gofs := v.gofs
      dst := v.dst
      lfo0 := v.lfo0
      lfo1 := v.lfo1
      eg0 := v.eg0
      eg1 := v.eg1
      shut := v.shut
      flags := { (controlLogic s v).flags with final := v.flags.final }
      audio := v.audio } = v := by
  rw [controlLogic_flags]
  simp only [controlLogic_act, controlLogic_pend, controlLogic_ident, controlLogic_forced, controlLogic_pp,
    controlLogic_grate, controlLogic_desc, controlLogic_pos, controlLogic_stale]

/-- Settles O36: the rules one by one. -/
theorem controlLogicFollowsItsRules : Obligations.ControlLogicFollowsItsRules := by
  rintro s v c hs hv rfl
  obtain ⟨hlfo0, hlfo1⟩ := controlLogic_lfos s v
  obtain ⟨heg0, heg1⟩ := controlLogic_egs_eq s v
  obtain ⟨hgl, hgr, hmono, hrv, hch⟩ := controlLogic_gains_toNat s v rfl rfl
  obtain ⟨htold, haold⟩ := controlLogic_previous s v
  have hgofs := glideStep_toInt v.gofs v.grate
  rw [← controlLogic_gofs s v] at hgofs
  exact ⟨hgofs, controlLogic_dst_toInt hs hv, hlfo0, hlfo1, heg0, heg1, controlLogic_shut_toNat s v,
    controlLogic_final_iff s v, controlLogic_tnew_toNat s v, controlLogic_anew_toNat hv, ⟨_, _, rfl, rfl, hgl, hgr⟩, hmono,
    hrv, hch, htold, haold, controlLogic_frame s v⟩

end Sys2Proof.Machine
end

section
/-! The port of the effect unit: its answer is held to R330's contract, and one that meets it is taken as it is (R327, R330 to
R332). -/

namespace Sys2Proof.Machine
open Safety

-- One theorem at a time: each further thread would reserve a gigabyte of the check's memory.
set_option Elab.async false

theorem fitBus_of_length {n : Nat} {xs : List (BitVec 32)} (h : xs.length = n) : fitBus n xs = xs := by
  subst h
  refine List.ext_getElem (fitBus_length ..) fun j hj hj' => ?_
  simp [fitBus, hj']

/-- A missing array is one of zeros (R331). -/
theorem fitBus_nil (n : Nat) : fitBus n [] = fitBus n (List.replicate n 0) := by
  rw [fitBus_of_length List.length_replicate]
  simp [fitBus]

theorem clampDelay_of_bounds {x : BitVec 32} (h : -268435456 ≤ x.toInt ∧ x.toInt ≤ 268435456) : clampDelay x = x := by
  rw [clampDelay, clamp_of_mem h.1 h.2, BitVec.ofInt_toInt]

theorem map_clampDelay_of_bounds {xs : List (BitVec 32)}
    (h : ∀ x ∈ xs, -268435456 ≤ x.toInt ∧ x.toInt ≤ 268435456) : xs.map clampDelay = xs :=
  (List.map_congr_left fun x hx => clampDelay_of_bounds (h x hx)).trans (List.map_id xs)

/-- An answer that meets the contract is left as it is (R330). -/
theorem fxContract_of_meets {n : Nat} {o : FxOut} (h : FxContract n o) : fxContract n o = o := by
  obtain ⟨hl, hr, hdl, hdr, hdm, hde1, hde2, hbounds⟩ := h
  simp only [List.forall_mem_append] at hbounds
  obtain ⟨⟨⟨⟨hdlb, hdrb⟩, hdmb⟩, hde1b⟩, hde2b⟩ := hbounds
  simp only [fxContract, fitBus_of_length, hl, hr, hdl, hdr, hdm, hde1, hde2, map_clampDelay_of_bounds hdlb,
    map_clampDelay_of_bounds hdrb, map_clampDelay_of_bounds hdmb, map_clampDelay_of_bounds hde1b,
    map_clampDelay_of_bounds hde2b]

/-- Whatever a unit answers, what the model takes of it meets the contract (R330). -/
theorem fxContract_meets (n : Nat) (o : FxOut) : FxContract n (fxContract n o) := by
  have hclamp : ∀ xs, ((fitBus n xs).map clampDelay).length = n :=
    fun xs => (List.length_map _).trans (fitBus_length n xs)
  refine ⟨fitBus_length .., fitBus_length .., hclamp _, hclamp _, hclamp _, hclamp _, hclamp _, fun x hx => ?_⟩
  simp only [List.mem_append] at hx
  rcases hx with (((hx | hx) | hx) | hx) | hx <;> exact bounds_of_mem_map_clampDelay hx

/-- The connected unit's answer, held to the contract (R330, R331). -/
theorem fxAudioOf_eq (cfg : Config) (st : FxState) (l r e1 e2 : List (BitVec 32)) :
    fxAudioOf cfg st l r e1 e2 = fxContract cfg.chunk (fxAnswer cfg st l r e1 e2) := by
  unfold fxAudioOf fxAudioRaw fxAnswer
  cases cfg.fx with
  | null | echo => simp only [fxContract, fitBus_nil]
  | external u => rfl

theorem fxControlOf_eq (cfg : Config) (st : FxState) : fxControlOf cfg.fx st = fxControlled cfg st := by
  unfold fxControlOf fxControlled
  cases cfg.fx <;> rfl

/-- The null unit's answer meets the contract (R331). -/
theorem fxContract_null {cfg : Config} (h : cfg.fx = .null) (st : FxState) {l r : List (BitVec 32)}
    (hl : l.length = cfg.chunk) (hr : r.length = cfg.chunk) (e1 e2 : List (BitVec 32)) :
    FxContract cfg.chunk (fxAnswer cfg st l r e1 e2) := by
  have hzero : ∀ x ∈ List.replicate cfg.chunk 0#32, -268435456 ≤ x.toInt ∧ x.toInt ≤ 268435456 := fun x hx => by
    rw [List.eq_of_mem_replicate hx]
    decide
  simp only [FxContract, fxAnswer, h, List.forall_mem_append]
  exact ⟨hl, hr, List.length_replicate, List.length_replicate, List.length_replicate, List.length_replicate,
    List.length_replicate, ⟨⟨⟨hzero, hzero⟩, hzero⟩, hzero⟩, hzero⟩

end Sys2Proof.Machine
end

section
/-! The buses through a tick: which voices are rendered, what the live buses hold before and after they are added, the mono fold
and the effect unit's part (R301 to R303, R321 to R323, R326, R327, R332). -/

namespace Sys2Proof.Machine
open Safety

-- One theorem at a time: each further thread would reserve a gigabyte of the check's memory.
set_option Elab.async false

/-! ## The voices that a tick renders -/

/-- The voice with another queued record. -/
def Voice.withPend (v : Voice) (p : Pend) : Voice := { v with pend := p }

/-- The graph does not read the queued record (R212). -/
theorem evalTick_withPend (s : State) (v : Voice) (p : Pend) : evalTick s (v.withPend p) = (evalTick s v).withPend p := by
  have hsource : ∀ src, sourceValue s (v.withPend p) src = sourceValue s v src := fun src => by cases src <;> rfl
  have htransform : ∀ sel xf, transform s (v.withPend p) sel xf = transform s v sel xf := fun sel xf => by
    simp only [transform, hsource]
  have hsum : ∀ es k, dstSum s (v.withPend p) es k = dstSum s v es k := fun es k => by
    simp only [dstSum, funext fun e => show contribution s (v.withPend p) e = contribution s v e by
      simp only [contribution, htransform]]
  simp only [evalTick, hsum]
  rfl

/-- The control logic neither reads nor writes the queued record (R310 to R319). -/
theorem controlLogic_withPend (s : State) (v : Voice) (p : Pend) :
    controlLogic s (v.withPend p) = (controlLogic s v).withPend p := by
  have hshut : ∀ w : Voice, (w.withPend p).stepShut s.cfg = (w.stepShut s.cfg).withPend p := fun w => by
    cases h : w.flags.silencing <;> simp [Voice.stepShut, Voice.withPend, h]
  have hfirst : ∀ w : Voice, (w.withPend p).firstTick = w.firstTick.withPend p := fun w => by
    cases h : w.flags.first <;> simp [Voice.firstTick, Voice.withPend, h]
  have hlfos : ∀ w : Voice, (w.withPend p).stepLfos s.cfg = (w.stepLfos s.cfg).withPend p := fun _ => rfl
  have hegs : ∀ w : Voice, (w.withPend p).stepEgs = w.stepEgs.withPend p := fun _ => rfl
  have hfinal : ∀ w : Voice, (w.withPend p).markFinal = w.markFinal.withPend p := fun _ => rfl
  have haudio : ∀ w : Voice, (w.withPend p).setAudio s.cfg = (w.setAudio s.cfg).withPend p := fun _ => rfl
  have hglide : (v.withPend p).glide = v.glide.withPend p := rfl
  simp only [controlLogic, hglide, evalTick_withPend, hlfos, hegs, hshut, hfinal, haudio, hfirst]

/-- The audio logic does not read the queued record (R320). -/
theorem renderVoice_withPend (s : State) (v : Voice) (p : Pend) (ctr : Nat) :
    renderVoice s (v.withPend p) ctr = renderVoice s v ctr := by
  have hframes : ∀ k j q ctr, renderFrames s (v.withPend p) k j q ctr = renderFrames s v k j q ctr := fun k => by
    induction k with
    | zero => exact fun _ _ _ => rfl
    | succ k ih =>
      intro j q ctr
      simp only [renderFrames, ih]
      rfl
  exact hframes ..

/-- A firing watchdog makes of an active voice the silenced one, but for a record that is dropped (R302). -/
theorem allOff_of_act {v : Voice} (hact : v.act = true) : v.allOff = (silenced v).withPend v.allOff.pend := by
  rw [← Voice.silence_eq, Voice.allOff, if_pos hact]
  rfl

/-- A slot renders the voice that `soundsAs` names, but for its queued record, and none where it names none (R300, R302,
R303). -/
theorem soundsAs_cases (s : State) (v : Voice) :
    ((voiceAtAudio s v).act = false ∧ soundsAs s v = none) ∨
    ((voiceAtAudio s v).act = true ∧ ∃ c p, soundsAs s v = some c ∧ voiceAtAudio s v = c.withPend p) := by
  have hself : ∀ c : Voice, c = c.withPend c.pend := fun _ => rfl
  cases hact : v.act with
  | true =>
    obtain ⟨hruns, -⟩ := voiceAtControl_of_act s hact
    have haudio : voiceAtAudio s v = controlLogic s (voiceAtControl s v) := by
      rw [voiceAtAudio, controlVoice, if_pos hruns]
    refine .inr ⟨by rw [haudio, controlLogic_act, hruns], ?_⟩
    rw [soundsAs, if_pos hact]
    cases hf : s.watchdogFires with
    | true =>
      rw [if_pos ((watchdogFires_iff s).mp hf)]
      refine ⟨_, v.allOff.pend, rfl, ?_⟩
      rw [haudio, voiceAtControl_eq_allOff hf, ← controlLogic_withPend, ← allOff_of_act hact]
    | false =>
      rw [if_neg (not_watchdogDue hf)]
      exact ⟨_, _, rfl, (voiceAtAudio_of_act hf hact).trans (hself _)⟩
  | false =>
    rw [soundsAs, if_neg (Bool.eq_false_iff.mp hact)]
    by_cases hp : PromotedBy s v
    · rw [if_pos hp]
      obtain ⟨hq, hdog, hvalid⟩ := hp
      have haudio := voiceAtAudio_of_promoted (watchdogFires_eq_false hdog) hq ((validate_eq_none_iff s _).mpr hvalid)
      refine .inr ⟨?_, _, _, rfl, haudio.trans (hself _)⟩
      rw [haudio, controlLogic_act, initVoice_act]
    · refine .inl ⟨Bool.eq_false_of_not_eq_true fun h => ?_, if_neg hp⟩
      exact (sounds_of_voiceAtAudio_act h).elim (Bool.eq_false_iff.mp hact) hp

/-- A sum over the voices that a tick renders is `soundsAs`'s, if it does not read their queued records. -/
theorem map_rendered (s : State) {f : Voice → Int} (hf : ∀ c p, f (Voice.withPend c p) = f c) (vs : List Voice) :
    ((vs.map (voiceAtAudio s)).filter Voice.act).map f = (vs.filterMap (soundsAs s)).map f := by
  induction vs with
  | nil => rfl
  | cons v vs ih =>
    rw [List.map_cons]
    rcases soundsAs_cases s v with ⟨hact, hnone⟩ | ⟨hact, c, p, hsome, haudio⟩
    · rw [List.filter_cons_of_neg (Bool.eq_false_iff.mp hact), List.filterMap_cons_none hnone, ih]
    · rw [List.filter_cons_of_pos hact, List.filterMap_cons_some hsome, List.map_cons, List.map_cons, ih, haudio, hf]

/-- No phase before the audio logic makes an entry of the record of rewritten samples (R386). -/
theorem voiceAtAudio_stale (s : State) {v : Voice} (h : v.stale = []) : (voiceAtAudio s v).stale = [] := by
  have hpromote : ∀ w : Voice, w.stale = [] → (promoteVoice s w).stale = [] := fun w hw => by
    unfold promoteVoice
    split
    · split
      · simp [initVoice, freshVoice]
      · exact hw
    · exact hw
  have hcontrol : (voiceAtControl s v).stale = [] := by
    refine hpromote _ ?_
    split
    · unfold Voice.allOff
      split <;> exact h
    · exact h
  unfold voiceAtAudio controlVoice
  split
  · rw [controlLogic_stale, hcontrol]
  · exact hcontrol

/-! ## The live buses -/

/-- The state of a tick when its audio logic begins (R300). -/
def State.beforeAudio (s : State) : State := fxControl (controlAll (promoteAll (watchdog (delayIn s))))

theorem State.beforeAudio_cfg (s : State) : s.beforeAudio.cfg = s.cfg := by simp [State.beforeAudio]

/-- Until the audio logic the live buses are the delay buses of the tick before (R301). -/
theorem State.beforeAudio_buses (s : State) : s.beforeAudio.buses = (delayIn s).buses := by simp [State.beforeAudio]

/-- The effect unit's control logic has run (R327). -/
theorem State.beforeAudio_fxst (s : State) : s.beforeAudio.fxst = fxControlled s.cfg s.fxst := by
  rw [← fxControlOf_eq]
  simp [State.beforeAudio, fxControl]

/-- What step 6 hands to the effect unit and what it leaves, from the buses after the audio logic (R326, R332). -/
theorem tickToBuses_fx (s : State) {b : Buses} (hb : b = (audioAll s.beforeAudio).buses) {o : FxOut}
    (ho : o = fxAudioOf s.cfg (fxControlled s.cfg s.fxst) (List.zipWith (· + ·) b.l b.m) (List.zipWith (· + ·) b.r b.m)
      b.e1 b.e2) :
    (tickToBuses s).fxst = o.st ∧ (tickToBuses s).buses =
      { l := o.l, r := o.r, m := List.replicate s.cfg.chunk 0, e1 := b.e1, e2 := b.e2, dl := o.dl, dr := o.dr, dm := o.dm,
        de1 := o.de1, de2 := o.de2 } := by
  subst hb ho
  have htick : tickToBuses s = fxAudio (monoFold (audioAll s.beforeAudio)) := rfl
  rw [htick, ← State.beforeAudio_fxst, ← State.beforeAudio_cfg]
  exact ⟨rfl, rfl⟩

section
variable {s : State}

/-- Every voice that a tick renders has its registers in their ranges. -/
theorem voiceInRange_beforeAudio (hv : VoicesInRange s) : VoicesInRange s.beforeAudio :=
  have h := voiceInRange_keepsVoice.keepsTick
  h.fxCtl _ (h.control _ (h.promote _ (h.watchdog (h.delayIn s hv))))

/-- A voice adds at most full scale to an element of a bus (R321 to R323). -/
theorem abs_rendered_le {bus : Buses → List (BitVec 32)} {g : FrameAdd → Int} (h : IsLiveBus bus g) {v : Voice}
    (hv : VoiceInRange v) (j : Nat) : |((renderVoice s v 0).frames.map g).getD j 0| ≤ 32768 := by
  rcases Nat.lt_or_ge j ((renderVoice s v 0).frames.map g).length with hj | hj
  · rw [List.getD_eq_getElem _ _ hj, List.getElem_map]
    exact h.bounded _ (bounded_renderVoice s hv 0 _ (List.getElem_mem _))
  · rw [List.getD_eq_default _ _ hj]
    decide

/-- The sum over the voices that a tick renders, from the slots as its audio logic finds them. -/
theorem mixed_eq (s : State) (g : FrameAdd → Int) (j : Nat) : mixed s g j =
    ((s.beforeAudio.voices.filter Voice.act).map fun v => ((renderVoice s.beforeAudio v 0).frames.map g).getD j 0).sum := by
  have hsame : SameInputs s s.beforeAudio := sameInputs_beforeAudio s
  have hvoices : s.beforeAudio.voices = s.voices.map (voiceAtAudio s) := voices_beforeAudio s
  simp only [hsame.renderVoice]
  rw [hvoices, map_rendered s fun c p => by rw [renderVoice_withPend], mixed]

theorem beforeAudio_active_length (hshape : Shaped s) (hnv : s.cfg.nv ≤ 256) :
    (s.beforeAudio.voices.filter Voice.act).length ≤ 256 := by
  obtain ⟨hlen, -⟩ := hshape
  have hvoices : s.beforeAudio.voices = s.voices.map (voiceAtAudio s) := voices_beforeAudio s
  have hcount := List.length_filter_le Voice.act s.beforeAudio.voices
  rw [hvoices, List.length_map, hlen] at hcount
  exact hvoices ▸ hcount.trans hnv

/-- All voices together add at most 2^23 to an element of a bus (R47). -/
theorem abs_mixed_le {bus : Buses → List (BitVec 32)} {g : FrameAdd → Int} (h : IsLiveBus bus g) (hshape : Shaped s)
    (hv : VoicesInRange s) (hnv : s.cfg.nv ≤ 256) (j : Nat) : |mixed s g j| ≤ 8388608 := by
  rw [mixed_eq]
  have hcount := beforeAudio_active_length hshape hnv
  refine (abs_sum_le (b := 32768) fun x hx => ?_).trans (by rw [List.length_map]; omega)
  obtain ⟨v, hmem, rfl⟩ := List.mem_map.mp hx
  exact abs_rendered_le h (voiceInRange_beforeAudio hv v (List.mem_of_mem_filter hmem)) j

/-- After the audio logic a live bus holds its delay bus and the exact sum of what the voices rendered (R301, R321). -/
theorem toInt_liveBus {bus : Buses → List (BitVec 32)} {g : FrameAdd → Int} (h : IsLiveBus bus g) (hshape : Shaped s)
    (hfresh : NoHazard s) (hv : VoicesInRange s) (hnv : s.cfg.nv ≤ 256)
    (hlen : (bus (delayIn s).buses).length = s.cfg.chunk)
    (hb : ∀ x ∈ bus (delayIn s).buses, -268435456 ≤ x.toInt ∧ x.toInt ≤ 268435456) {j : Nat} (hj : j < s.cfg.chunk) :
    ((bus (audioAll s.beforeAudio).buses).getD j 0).toInt =
      ((bus (delayIn s).buses).getD j 0).toInt + mixed s g j := by
  have hstale : ∀ v ∈ s.beforeAudio.voices, v.stale = [] := fun v hmem => by
    rw [show s.beforeAudio.voices = s.voices.map (voiceAtAudio s) from voices_beforeAudio s] at hmem
    obtain ⟨x, hx, rfl⟩ := List.mem_map.mp hmem
    exact voiceAtAudio_stale s (hfresh x hx)
  have hbuses : (audioAll s.beforeAudio).buses =
      (delayIn s).buses.addVoices s.beforeAudio (s.beforeAudio.voices.filter Voice.act) := by
    rw [← State.beforeAudio_buses]
    exact audioVoices_buses _ hstale ..
  rw [hbuses, mixed_eq]
  exact toInt_bus_addVoices h (fun v hmem => voiceInRange_beforeAudio hv v (List.mem_of_mem_filter hmem))
    (beforeAudio_active_length hshape hnv) (hlen.trans (congrArg Config.chunk s.beforeAudio_cfg.symm)) hb
    (s.beforeAudio_cfg.symm ▸ hj)

/-- The mono fold adds M to L and to R without overflow (R326). -/
theorem toInt_fold {xs ys : List (BitVec 32)} {j : Nat} (hx : j < xs.length) (hy : j < ys.length)
    (hlo : -2147483648 ≤ (xs.getD j 0).toInt + (ys.getD j 0).toInt)
    (hhi : (xs.getD j 0).toInt + (ys.getD j 0).toInt < 2147483648) :
    ((List.zipWith (· + ·) xs ys).getD j 0).toInt = (xs.getD j 0).toInt + (ys.getD j 0).toInt := by
  have hadd : (List.zipWith (· + ·) xs ys).getD j 0 = xs.getD j 0 + ys.getD j 0 := by
    simp [List.getD_eq_getElem?_getD, hx, hy]
  rw [hadd, BitVec.toInt_add, Int.bmod_eq_of_le (by simpa using hlo) (by simpa using hhi)]

/-- The audio logic keeps the size of the buses (R47). -/
theorem mixedBuses_sized (hshape : Shaped s) : (audioAll s.beforeAudio).buses.Sized s.cfg.chunk := by
  have h := shaped_keepsTick
  have hkept : Shaped (audioAll s.beforeAudio) :=
    h.audio _ (h.fxCtl _ (h.control _ (h.promote _ (h.watchdog (h.delayIn s hshape)))))
  have hsized := sized_of_shaped hkept
  rwa [audioAll_cfg, State.beforeAudio_cfg] at hsized

/-- The five live buses after the audio logic, and the two that the mono fold makes of three of them (R301, R321 to R323,
R326). -/
theorem mixedBuses_toInt (hshape : Shaped s) (hfresh : NoHazard s) (hv : VoicesInRange s) (hdelays : DelaysBounded s)
    (hnv : s.cfg.nv ≤ 256) {b : Buses} (hb : b = (audioAll s.beforeAudio).buses) {j : Nat} (hj : j < s.cfg.chunk) :
    ((List.zipWith (· + ·) b.l b.m).getD j 0).toInt = (s.buses.dl.getD j 0).toInt + mixed s FrameAdd.l j +
      ((s.buses.dm.getD j 0).toInt + mixed s FrameAdd.m j) ∧
    ((List.zipWith (· + ·) b.r b.m).getD j 0).toInt = (s.buses.dr.getD j 0).toInt + mixed s FrameAdd.r j +
      ((s.buses.dm.getD j 0).toInt + mixed s FrameAdd.m j) ∧
    (b.e1.getD j 0).toInt = (s.buses.de1.getD j 0).toInt + mixed s FrameAdd.e1 j ∧
    (b.e2.getD j 0).toInt = (s.buses.de2.getD j 0).toInt + mixed s FrameAdd.e2 j := by
  obtain ⟨hbl, hbr, hbm, -⟩ := hb ▸ mixedBuses_sized hshape
  have ⟨_, _, _, _, _, _, _, hdl, hdr, hdm, hde1, hde2, _⟩ := hshape
  simp only [DelaysBounded, List.forall_mem_append] at hdelays
  obtain ⟨⟨⟨⟨hdlb, hdrb⟩, hdmb⟩, hde1b⟩, hde2b⟩ := hdelays
  have hlive : ∀ {bus : Buses → List (BitVec 32)} {g : FrameAdd → Int}, IsLiveBus bus g →
      (bus (delayIn s).buses).length = s.cfg.chunk →
      (∀ x ∈ bus (delayIn s).buses, -268435456 ≤ x.toInt ∧ x.toInt ≤ 268435456) →
      ((bus b).getD j 0).toInt = ((bus (delayIn s).buses).getD j 0).toInt + mixed s g j ∧
        |((bus b).getD j 0).toInt| ≤ 276824064 := fun h hlen hbound => by
    have hexact := toInt_liveBus h hshape hfresh hv hnv hlen hbound hj
    rw [← hb] at hexact
    have hmixed := abs_le.mp (abs_mixed_le h hshape hv hnv j)
    have hstart := hbound _ (List.getElem_mem (hlen.symm ▸ hj))
    rw [← List.getD_eq_getElem _ 0] at hstart
    exact ⟨hexact, abs_le.mpr (by omega)⟩
  obtain ⟨hlexact, hlbound⟩ := hlive isLiveBus_l hdl hdlb
  obtain ⟨hrexact, hrbound⟩ := hlive isLiveBus_r hdr hdrb
  obtain ⟨hmexact, hmbound⟩ := hlive isLiveBus_m hdm hdmb
  obtain ⟨he1exact, -⟩ := hlive isLiveBus_e1 hde1 hde1b
  obtain ⟨he2exact, -⟩ := hlive isLiveBus_e2 hde2 hde2b
  rw [abs_le] at hlbound hrbound hmbound
  refine ⟨?_, ?_, he1exact, he2exact⟩
  · rw [toInt_fold (hbl.symm ▸ hj) (hbm.symm ▸ hj) (by omega) (by omega), hlexact, hmexact]
    rfl
  · rw [toInt_fold (hbr.symm ▸ hj) (hbm.symm ▸ hj) (by omega) (by omega), hrexact, hmexact]
    rfl

end

/-! ## The tick -/

/-- What a tick leaves in the buses and in `FXST` (R301, R321 to R323, R326, R327, R332). -/
theorem tick_carries_buses {s : State} (hshape : Shaped s) (hfresh : NoHazard s) (hv : VoicesInRange s)
    (hdelays : DelaysBounded s) (hnv : s.cfg.nv ≤ 256) : ∃ (l r e1 e2 : List (BitVec 32)) (o : FxOut),
    (l.length = s.cfg.chunk ∧ r.length = s.cfg.chunk ∧ e1.length = s.cfg.chunk ∧ e2.length = s.cfg.chunk) ∧
    (∀ j < s.cfg.chunk,
      (l.getD j 0).toInt = (s.buses.dl.getD j 0).toInt + mixed s FrameAdd.l j +
        ((s.buses.dm.getD j 0).toInt + mixed s FrameAdd.m j) ∧
      (r.getD j 0).toInt = (s.buses.dr.getD j 0).toInt + mixed s FrameAdd.r j +
        ((s.buses.dm.getD j 0).toInt + mixed s FrameAdd.m j) ∧
      (e1.getD j 0).toInt = (s.buses.de1.getD j 0).toInt + mixed s FrameAdd.e1 j ∧
      (e2.getD j 0).toInt = (s.buses.de2.getD j 0).toInt + mixed s FrameAdd.e2 j) ∧
    o = fxContract s.cfg.chunk (fxAnswer s.cfg (fxControlled s.cfg s.fxst) l r e1 e2) ∧
    (tick s).fxst = o.st ∧ (tick s).buses =
      { l := o.l, r := o.r, m := List.replicate s.cfg.chunk 0, e1 := e1, e2 := e2, dl := o.dl, dr := o.dr, dm := o.dm,
        de1 := o.de1, de2 := o.de2 } := by
  have ⟨hl, hr, hm, he1, he2, _⟩ := mixedBuses_sized hshape
  obtain ⟨hfxst, hbuses⟩ := tickToBuses_fx s rfl rfl
  rw [← tick_fxst, fxAudioOf_eq] at hfxst
  rw [← tick_buses, fxAudioOf_eq] at hbuses
  exact ⟨_, _, _, _, _, ⟨by simp [hl, hm], by simp [hr, hm], he1, he2⟩,
    fun j hj => mixedBuses_toInt hshape hfresh hv hdelays hnv rfl hj, rfl, hfxst, hbuses⟩

/-- Nothing that a tick renders is in the schedule. -/
theorem mixed_withSched (s : State) (rest : List Event) : mixed { s with sched := rest } = mixed s := by
  have hsame := sameInputs_withSched s rest
  have hsounds : soundsAs { s with sched := rest } = soundsAs s := by
    funext v
    simp only [soundsAs, PromotedBy, hsame.controlLogic, hsame.initVoice, hsame.wavetableOk, hsame.blockRangeOk]
  funext g j
  simp only [mixed, hsounds, hsame.renderVoice]

/-- Step 5 over inactive slots does nothing (R320). -/
theorem audioVoices_of_inactive (s : State) {vs : List Voice} (h : ∀ v ∈ vs, v.act = false) (b : Buses) (e : BitVec 16)
    (ctr : Nat) : audioVoices s vs b e ctr = { voices := vs, buses := b, err := e, ctr := ctr } := by
  induction vs with
  | nil => rfl
  | cons v vs ih =>
    obtain ⟨hact, hrest⟩ := List.forall_mem_cons.mp h
    rw [audioVoices, if_neg (Bool.eq_false_iff.mp hact), ih hrest]

/-- A free slot reaches the audio logic untouched, whether the watchdog fires or not (R187, R300, R302). -/
theorem voiceAtAudio_of_slot_free (s : State) {v : Voice} (h : slotState v = .free) : voiceAtAudio s v = v := by
  obtain ⟨hact, hpend⟩ := (slotState_eq_free_iff v).mp h
  cases hf : s.watchdogFires with
  | false => exact voiceAtAudio_of_free hf hact hpend
  | true =>
    have hoff : v.allOff = v := by
      rw [Voice.allOff, if_neg (Bool.eq_false_iff.mp hact), if_neg (Bool.eq_false_iff.mp hpend)]
    rw [voiceAtAudio, voiceAtControl_eq_allOff hf, hoff, controlVoice, if_neg (Bool.eq_false_iff.mp hact)]

/-- With every slot FREE a tick's audio logic finds and leaves the slots and the delay buses as they were (R301). -/
theorem audioAll_of_free {s : State} (h : ∀ v ∈ s.voices, slotState v = .free) :
    (audioAll s.beforeAudio).voices = s.voices ∧ (audioAll s.beforeAudio).buses = (delayIn s).buses := by
  have hvoices : s.beforeAudio.voices = s.voices :=
    (voices_beforeAudio s).trans
      ((List.map_congr_left fun v hv => voiceAtAudio_of_slot_free s (h v hv)).trans (List.map_id _))
  have hinactive : ∀ v ∈ s.beforeAudio.voices, v.act = false := fun v hv => by
    obtain ⟨hact, -⟩ := (slotState_eq_free_iff v).mp (h v (hvoices ▸ hv))
    exact hact
  have hpass := audioVoices_of_inactive s.beforeAudio hinactive s.beforeAudio.buses s.beforeAudio.err s.beforeAudio.freeCtr
  exact ⟨(congrArg AudioPass.voices hpass).trans hvoices, (congrArg AudioPass.buses hpass).trans s.beforeAudio_buses⟩

/-- A tick with every slot FREE and the null unit (R301, R326, R331). -/
theorem tick_of_free_null {s : State} (hshape : Shaped s) (hfx : s.cfg.fx = .null)
    (hfree : ∀ v ∈ s.voices, slotState v = .free) : (tick s).voices = s.voices ∧ (tick s).fxst = s.fxst ∧
    (tick s).buses = { Buses.zero s.cfg.chunk with
      l := List.zipWith (· + ·) s.buses.dl s.buses.dm
      r := List.zipWith (· + ·) s.buses.dr s.buses.dm
      e1 := s.buses.de1
      e2 := s.buses.de2 } := by
  obtain ⟨-, -, -, -, -, -, -, hdl, hdr, hdm, -⟩ := hshape
  obtain ⟨hvoices, hlive⟩ := audioAll_of_free hfree
  have hmeets := fxContract_null hfx (fxControlled s.cfg s.fxst) (l := List.zipWith (· + ·) s.buses.dl s.buses.dm)
    (r := List.zipWith (· + ·) s.buses.dr s.buses.dm) (by simp [hdl, hdm]) (by simp [hdr, hdm]) s.buses.de1 s.buses.de2
  have hanswer := (fxAudioOf_eq ..).trans (fxContract_of_meets hmeets)
  obtain ⟨hfxst, hbuses⟩ := tickToBuses_fx s hlive.symm hanswer.symm
  have hslots : (tickToBuses s).voices = (audioAll s.beforeAudio).voices :=
    (fxAudio_voices _).trans (monoFold_voices _)
  rw [tick_voices, tick_fxst, tick_buses, hfxst, hbuses]
  simp only [fxAnswer, fxControlled, hfx]
  exact ⟨hslots.trans hvoices, trivial, rfl⟩

/-- Settles O40: the audio logic adds the exact sums to the delay buses, and the rest is the port's; with no voice the null
unit's answer meets the contract. -/
theorem tickCarriesTheBuses : Obligations.TickCarriesTheBuses := by
  refine ⟨fun s t hdue hshape hfresh _ hv hdelays hnv hstep => ?_, fun s t hdue hshape hfx hfree hstep => ?_⟩
  · obtain ⟨rest, rfl⟩ := step_of_tickDue hdue hstep
    obtain ⟨l, r, e1, e2, o, hlen, hexact, ho, hleaves⟩ :=
      tick_carries_buses (s := { s with sched := rest }) hshape hfresh hv hdelays hnv
    rw [mixed_withSched] at hexact
    refine ⟨l, r, e1, e2, o, hlen, hexact, ho ▸ fxContract_meets .., ?_, hleaves⟩
    rintro answer rfl hmeets
    exact ho.trans (fxContract_of_meets hmeets)
  · obtain ⟨rest, rfl⟩ := step_of_tickDue hdue hstep
    obtain ⟨hvoices, hfxst, hbuses⟩ := tick_of_free_null (s := { s with sched := rest }) hshape hfx hfree
    rw [hbuses]
    refine ⟨hvoices, hfxst, rfl, rfl, rfl, rfl, rfl, fun b hb => ?_⟩
    simpa [Buses.zero, zeroBus] using hb

end Sys2Proof.Machine
end
